-- ==== Sys2Proof/Word.lean ====
section
/-! DEFINITION. The widths of the block (spec/00_scope.md R6, R13; spec/30_encoding.md R80, R82): the words that stand on
its ports and in its registers. Bit 0 is the least significant bit of each (R7); every value is unsigned. -/

namespace Sys2Proof

/-- `BUS_W` = `FREQ_W` = 32 bits: the data of one transaction and the frequency operands (R6). -/
abbrev Word := BitVec 32

/-- `REG_W` = 16 bits: the counters and their prescaler, reload and compare registers (R6). -/
abbrev Half := BitVec 16

/-- `ADDR_W` = 8 bits: a byte address of the register port (R6). -/
abbrev Addr := BitVec 8

/-- The fixed command, 17 bits: `CODE` 7:0, `ADDRESS` 15:8, `REPEAT` 16 (R25). -/
abbrev Command := BitVec 17

/-- A transaction word `T` of exactly 42 bits, as it stands on port `req` (R13, R80). -/
abbrev TxnWord := BitVec 42

/-- A response word `P` of exactly 36 bits, as it stands on port `rsp` (R13, R82). -/
abbrev RspWord := BitVec 36

end Sys2Proof
end

