-- ==== Sys2Proof/Port.lean ====
section
/-! DEFINITION. The fixed sets of names the spec uses at the block's boundary: requesters, registers of the map, response
codes, interrupt sources, dispatcher steps, and the steps of the agents (spec/00_scope.md R9). Data only; what each means is
in Decode.lean and under Machine/. -/

namespace Sys2Proof

/-- Who issues a transaction: bit `RQ` of the word (R80, R73). -/
inductive Requester where
  /-- `RQ = 0`: the software that drives the register port. -/
  | host
  /-- `RQ = 1`: the external protocol encoder, during one of its two operations. -/
  | encoder
deriving DecidableEq, Repr, Inhabited

/-- The sixteen registers of the address map, in the order of their addresses 0x00 to 0x3C (R28). -/
inductive Reg where
  | fin | ftgt | fsmp | cmdval | divpsc | divarr | divst | ctrl
  | status | psc | arr | duty | ocen | sspsc | ssarr | busycnt
deriving DecidableEq, Repr, Inhabited

/-- The response codes the block gives (R190). Codes 6, 7, 14 and 15 are reserved and never given, so they have no name. -/
inductive RespCode where
  /-- 0: the transaction was performed. -/
  | ok
  /-- 1: ConfigurationError, the target frequency operand is 0. -/
  | cfgTz
  /-- 2: ConfigurationError, the ratio is 0. -/
  | cfgRz
  /-- 3: ConfigurationError, the reload count would be negative (never given, R104). -/
  | cfgNeg
  /-- 4: ConfigurationError, the prescaler would exceed 65535 (never given while `FREQ_W = 32`, R104). -/
  | cfgPov
  /-- 5: ConfigurationError, the pin and modulator setup cannot complete. -/
  | cfgPin
  /-- 8: the address is misaligned or not mapped. -/
  | eAddr
  /-- 9: the register is read only. -/
  | eRo
  /-- 10: `READY = 0`. -/
  | eNotrdy
  /-- 11: already performed, already failed, or frozen. -/
  | eState
  /-- 12: reserved command code. -/
  | eCmd
  /-- 13: the requester may not reach the register. -/
  | eAcc
deriving DecidableEq, Repr, Inhabited

/-- A response: the code and the data read (R82). -/
structure Response where
  code : RespCode
  rdata : Word
deriving DecidableEq, Repr, Inhabited

/-- The causes of a ConfigurationError (R31 field `CFGCAUSE`, R104, R144). -/
inductive CfgCause where
  /-- 1: target frequency zero. -/
  | targetZero
  /-- 2: ratio zero, the target exceeds the input. -/
  | ratioZero
  /-- 3: reload count negative. -/
  | reloadNegative
  /-- 4: prescaler exceeds 16 bits. -/
  | prescalerOverflow
  /-- 5: the pin and modulator setup cannot complete. -/
  | pinSetup
deriving DecidableEq, Repr, Inhabited

/-- The document's DividerConfig: a prescaler and a reload count, each in [0, 65535] (R8, R100). -/
structure DividerConfig where
  prescaler : Half
  reloadCount : Half
deriving DecidableEq, Repr, Inhabited

/-- The two interrupt sources (R195). -/
inductive Source where
  /-- `SS`, the sample timer. -/
  | ss
  /-- `CT`, the command trigger. -/
  | ct
deriving DecidableEq, Repr, Inhabited

/-- The five steps of a handler sequence (R197). -/
inductive DspStep where
  | enter | lock | ret | ack | exit
deriving DecidableEq, Repr, Inhabited

/-- One step of one agent (R9). `encReturn` is the encoder's signal on port `enc_ret` that its call has returned
(R13, R200). -/
inductive Event where
  /-- `CLK(btn)`: one rising edge of `clk` with the sampled level of `btn`. -/
  | clk (btn : Bool)
  /-- One transaction of the host (bit 41 is 0) or of the encoder (bit 41 is 1). -/
  | txn (t : TxnWord)
  /-- One step of the handler sequence of a source. -/
  | dsp (step : DspStep) (src : Source)
  /-- The encoder call in progress returns. -/
  | encReturn
  /-- `RESET`: the hardware reset input. -/
  | reset
deriving DecidableEq, Repr, Inhabited

end Sys2Proof
end

