-- ==== Sys2Proof/Syntax.lean ====
section
/-! DEFINITION. The instructions: the 26 transactions of spec/opcode_table.json (spec/30_encoding.md R84), one constructor per
row, in the table's order. Every instruction carries its requester (bit 41, in no mask: R80); the five `TW` instructions
carry the 32-bit immediate (R83). Ignored bits are not carried. -/

namespace Sys2Proof

/-- One instruction: a transaction word that matches a row of the opcode map (R84). -/
inductive Instr where
  | setfin (rq : Requester) (imm : Word)
  | getfin (rq : Requester)
  | setftgt (rq : Requester) (imm : Word)
  | getftgt (rq : Requester)
  | setfsmp (rq : Requester) (imm : Word)
  | getfsmp (rq : Requester)
  | setcmd (rq : Requester) (imm : Word)
  | getcmd (rq : Requester)
  | getdivpsc (rq : Requester)
  | getdivarr (rq : Requester)
  | getdivst (rq : Requester)
  | getctrl (rq : Requester)
  | init (rq : Requester)
  | ssstart (rq : Requester)
  | ctarm (rq : Requester)
  | getstatus (rq : Requester)
  | getpsc (rq : Requester)
  | getmaxduty (rq : Requester)
  | getduty (rq : Requester)
  | setduty (rq : Requester) (imm : Word)
  | getocen (rq : Requester)
  | enable (rq : Requester)
  | disable (rq : Requester)
  | getsspsc (rq : Requester)
  | getssarr (rq : Requester)
  | getbusycnt (rq : Requester)
deriving DecidableEq, Repr, Inhabited

end Sys2Proof
end

