-- ==== Sys2Proof/WellFormed.lean ====
section
/-! DEFINITION. Well-formedness. A term of `Instr` cannot be ill-formed: its requester is one of two and its immediate has
exactly 32 bits, so the type carries the check. What can be ill-formed is the written form of spec/30_encoding.md R89, a line
of a program, in which an immediate may be missing, superfluous or too large and a raw address may exceed the address space.
This file gives that written form and the check on it; Machine/Assembler.lean gives what a well-formed line stands for. -/

namespace Sys2Proof

/-- The 26 mnemonics of the opcode map, in its order (R84, R89). -/
inductive Mnemonic where
  | SETFIN | GETFIN | SETFTGT | GETFTGT | SETFSMP | GETFSMP | SETCMD | GETCMD | GETDIVPSC | GETDIVARR | GETDIVST | GETCTRL
  | INIT | SSSTART | CTARM | GETSTATUS | GETPSC | GETMAXDUTY | GETDUTY | SETDUTY | GETOCEN | ENABLE | DISABLE | GETSSPSC
  | GETSSARR | GETBUSYCNT
deriving DecidableEq, Repr, Inhabited

/-- The five `TW` instructions, exactly those whose line carries an immediate (R81, R89). -/
def Mnemonic.takesImm (m : Mnemonic) : Bool :=
  m == .SETFIN || m == .SETFTGT || m == .SETFSMP || m == .SETCMD || m == .SETDUTY

/-- One line of a program (R89): an instruction, a raw read or write, or a line that describes another agent. A `CLK`
line whose level is omitted keeps the last one. -/
inductive Line where
  | instr (rq : Requester) (m : Mnemonic) (imm : Option Nat)
  | rd (rq : Requester) (addr : Nat)
  | wr (rq : Requester) (addr imm : Nat)
  | clk (n : Nat) (btn : Option Bool)
  | dsp (step : DspStep) (src : Source)
  | reset
deriving DecidableEq, Repr, Inhabited

/-- R89: the immediate is "present exactly for the five `TW` instructions" and is an unsigned number below 2^32. -/
def immediateWellFormed (m : Mnemonic) (imm : Option Nat) : Bool :=
  match imm with
  | some n => m.takesImm && decide (n < 2 ^ 32)
  | none => !m.takesImm

/-- A line can be written on the port: immediates below 2^32 (R89), addresses in the 256-byte space (R28). -/
def Line.wellFormed (l : Line) : Bool :=
  match l with
  | .instr _ m imm => immediateWellFormed m imm
  | .rd _ addr => decide (addr < 256)
  | .wr _ addr imm => decide (addr < 256) && decide (imm < 2 ^ 32)
  | .clk _ _ => true
  | .dsp _ _ => true
  | .reset => true

end Sys2Proof
end

