-- ==== Sys2Proof/Decode.lean ====
section
/-! DEFINITION. Decoding and encoding of transaction words (spec/30_encoding.md R80 to R87, spec/60_exceptions.md R194,
spec/90_conflicts.md C10), the address map (spec/10_state.md R28) and the opcode map (R84). The decoder is total: every word
is one of the 26 instructions or is refused with one named reason. -/

namespace Sys2Proof

/-- Why a word is no instruction (R86). The port answers it with the code of the same name and changes nothing. -/
inductive DecodeError where
  /-- The address is misaligned or not mapped. -/
  | addr
  /-- The word comes from the encoder and its register is outside the PWM surface (C10). -/
  | acc
  /-- A write to a read-only register. -/
  | ro
  /-- A write of a reserved command code to `CTRL`. -/
  | cmd
deriving DecidableEq, Repr, Inhabited

/-! ### The fields of a word (R80) -/

/-- `RQ`, bit 41. -/
def rqOf (t : TxnWord) : Requester := if t.getLsbD 41 then .encoder else .host

/-- `WE`, bit 40. -/
def weOf (t : TxnWord) : Bool := t.getLsbD 40

/-- `ADDR`, bits 39:32. -/
def addrOf (t : TxnWord) : Addr := t.extractLsb' 32 8

/-- `WDATA`, bits 31:0. -/
def wdataOf (t : TxnWord) : Word := t.extractLsb' 0 32

/-- The bit that stands for a requester (R80). -/
def rqBit (rq : Requester) : BitVec 1 :=
  match rq with
  | .host => 0#1
  | .encoder => 1#1

/-- The word `RQ‖WE‖ADDR‖WDATA` (R80). -/
def txnWord (rq : Requester) (we : BitVec 1) (addr : Addr) (wdata : Word) : TxnWord :=
  rqBit rq ++ we ++ addr ++ wdata

/-! ### The address map (R28, R65) -/

/-- The byte address of a register (R28). -/
def regAddr (r : Reg) : Addr :=
  match r with
  | .fin => 0x00 | .ftgt => 0x04 | .fsmp => 0x08 | .cmdval => 0x0C
  | .divpsc => 0x10 | .divarr => 0x14 | .divst => 0x18 | .ctrl => 0x1C
  | .status => 0x20 | .psc => 0x24 | .arr => 0x28 | .duty => 0x2C
  | .ocen => 0x30 | .sspsc => 0x34 | .ssarr => 0x38 | .busycnt => 0x3C

/-- The register at a byte address; none for a misaligned (`addr[1:0] != 0`) or unmapped (`addr >= 0x40`) one (R62, R65,
R85 step 2). -/
def regAt (a : Addr) : Option Reg :=
  match a.toNat with
  | 0x00 => some .fin | 0x04 => some .ftgt | 0x08 => some .fsmp | 0x0C => some .cmdval
  | 0x10 => some .divpsc | 0x14 => some .divarr | 0x18 => some .divst | 0x1C => some .ctrl
  | 0x20 => some .status | 0x24 => some .psc | 0x28 => some .arr | 0x2C => some .duty
  | 0x30 => some .ocen | 0x34 => some .sspsc | 0x38 => some .ssarr | 0x3C => some .busycnt
  | _ => none

/-- The registers the encoder may reach: the PWM surface 0x28, 0x2C, 0x30 (R73). -/
def inPwmSurface (r : Reg) : Bool := r == .arr || r == .duty || r == .ocen

/-! ### The decoder (R85) -/

/-- A read of a register: the `TR` row with its address (R85 step 3). -/
def readInstr (r : Reg) (rq : Requester) : Instr :=
  match r with
  | .fin => .getfin rq
  | .ftgt => .getftgt rq
  | .fsmp => .getfsmp rq
  | .cmdval => .getcmd rq
  | .divpsc => .getdivpsc rq
  | .divarr => .getdivarr rq
  | .divst => .getdivst rq
  | .ctrl => .getctrl rq
  | .status => .getstatus rq
  | .psc => .getpsc rq
  | .arr => .getmaxduty rq
  | .duty => .getduty rq
  | .ocen => .getocen rq
  | .sspsc => .getsspsc rq
  | .ssarr => .getssarr rq
  | .busycnt => .getbusycnt rq

/-- A write to `CTRL`: the whole of `WDATA` is the command code (R30, R85 step 6). -/
def ctrlInstr (rq : Requester) (wdata : Word) : Except DecodeError Instr :=
  if wdata = 1 then .ok (.init rq)
  else if wdata = 2 then .ok (.ssstart rq)
  else if wdata = 3 then .ok (.ctarm rq)
  else .error .cmd

/-- A write to a register (R85 steps 4 to 7), before the requester is looked at. -/
def writeInstr (r : Reg) (rq : Requester) (wdata : Word) : Except DecodeError Instr :=
  match r with
  | .fin => .ok (.setfin rq wdata)
  | .ftgt => .ok (.setftgt rq wdata)
  | .fsmp => .ok (.setfsmp rq wdata)
  | .cmdval => .ok (.setcmd rq wdata)
  | .duty => .ok (.setduty rq wdata)
  | .ocen => .ok (if wdata.getLsbD 0 then .enable rq else .disable rq)
  | .ctrl => ctrlInstr rq wdata
  | .divpsc | .divarr | .divst | .status | .psc | .arr | .sspsc | .ssarr | .busycnt => .error .ro

/-- An illegal word from a requester that may not reach the register is refused for that (R194 check 2 before checks 3
and 4; C10). -/
def refusal (r : Reg) (rq : Requester) (e : DecodeError) : DecodeError :=
  if rq = .encoder ∧ inPwmSurface r = false then .acc else e

/-- The decoder over the fields of a word (R85, R194 checks 1 to 4). -/
def decodeFields (rq : Requester) (we : Bool) (addr : Addr) (wdata : Word) : Except DecodeError Instr :=
  match regAt addr with
  | none => .error .addr
  | some r =>
    if we then
      match writeInstr r rq wdata with
      | .ok i => .ok i
      | .error e => .error (refusal r rq e)
    else .ok (readInstr r rq)

/-- The decoder: total on all 2^42 words (R85). -/
def decode (t : TxnWord) : Except DecodeError Instr := decodeFields (rqOf t) (weOf t) (addrOf t) (wdataOf t)

/-! ### The encoder (R80, R81, R84) -/

/-- The canonical word of an instruction. The ignored bits are 0: `WDATA` of a read (R80), `WDATA[31:1]` of `ENABLE` and
`DISABLE` (R81). -/
def encode (i : Instr) : TxnWord :=
  match i with
  | .setfin rq imm => txnWord rq 1#1 0x00#8 imm
  | .getfin rq => txnWord rq 0#1 0x00#8 0#32
  | .setftgt rq imm => txnWord rq 1#1 0x04#8 imm
  | .getftgt rq => txnWord rq 0#1 0x04#8 0#32
  | .setfsmp rq imm => txnWord rq 1#1 0x08#8 imm
  | .getfsmp rq => txnWord rq 0#1 0x08#8 0#32
  | .setcmd rq imm => txnWord rq 1#1 0x0C#8 imm
  | .getcmd rq => txnWord rq 0#1 0x0C#8 0#32
  | .getdivpsc rq => txnWord rq 0#1 0x10#8 0#32
  | .getdivarr rq => txnWord rq 0#1 0x14#8 0#32
  | .getdivst rq => txnWord rq 0#1 0x18#8 0#32
  | .getctrl rq => txnWord rq 0#1 0x1C#8 0#32
  | .init rq => txnWord rq 1#1 0x1C#8 1#32
  | .ssstart rq => txnWord rq 1#1 0x1C#8 2#32
  | .ctarm rq => txnWord rq 1#1 0x1C#8 3#32
  | .getstatus rq => txnWord rq 0#1 0x20#8 0#32
  | .getpsc rq => txnWord rq 0#1 0x24#8 0#32
  | .getmaxduty rq => txnWord rq 0#1 0x28#8 0#32
  | .getduty rq => txnWord rq 0#1 0x2C#8 0#32
  | .setduty rq imm => txnWord rq 1#1 0x2C#8 imm
  | .getocen rq => txnWord rq 0#1 0x30#8 0#32
  | .enable rq => txnWord rq 1#1 0x30#8 1#32
  | .disable rq => txnWord rq 1#1 0x30#8 0#32
  | .getsspsc rq => txnWord rq 0#1 0x34#8 0#32
  | .getssarr rq => txnWord rq 0#1 0x38#8 0#32
  | .getbusycnt rq => txnWord rq 0#1 0x3C#8 0#32

/-- A word with its ignored bits cleared: `WDATA` of a read, `WDATA[31:1]` of a write to `OCEN` (R80, R81). -/
def canonical (t : TxnWord) : TxnWord :=
  if weOf t then (if addrOf t = 0x30 then t &&& 0x3FF00000001 else t) else t &&& 0x3FF00000000

/-! ### The opcode map as the table gives it (R84): independent of the decoder above, for the statement that both agree -/

/-- One row: a word `T` is the row's instruction exactly when `T & mask = pattern` (the table's "match"). -/
structure OpRow where
  mnemonic : Mnemonic
  pattern : TxnWord
  mask : TxnWord
deriving DecidableEq, Repr

/-- The 26 rows of R84, in the table's order. -/
def opRows : List OpRow := [
  ⟨.SETFIN, 0x10000000000, 0x1FF00000000⟩, ⟨.GETFIN, 0x00000000000, 0x1FF00000000⟩,
  ⟨.SETFTGT, 0x10400000000, 0x1FF00000000⟩, ⟨.GETFTGT, 0x00400000000, 0x1FF00000000⟩,
  ⟨.SETFSMP, 0x10800000000, 0x1FF00000000⟩, ⟨.GETFSMP, 0x00800000000, 0x1FF00000000⟩,
  ⟨.SETCMD, 0x10C00000000, 0x1FF00000000⟩, ⟨.GETCMD, 0x00C00000000, 0x1FF00000000⟩,
  ⟨.GETDIVPSC, 0x01000000000, 0x1FF00000000⟩, ⟨.GETDIVARR, 0x01400000000, 0x1FF00000000⟩,
  ⟨.GETDIVST, 0x01800000000, 0x1FF00000000⟩, ⟨.GETCTRL, 0x01C00000000, 0x1FF00000000⟩,
  ⟨.INIT, 0x11C00000001, 0x1FFFFFFFFFF⟩, ⟨.SSSTART, 0x11C00000002, 0x1FFFFFFFFFF⟩,
  ⟨.CTARM, 0x11C00000003, 0x1FFFFFFFFFF⟩, ⟨.GETSTATUS, 0x02000000000, 0x1FF00000000⟩,
  ⟨.GETPSC, 0x02400000000, 0x1FF00000000⟩, ⟨.GETMAXDUTY, 0x02800000000, 0x1FF00000000⟩,
  ⟨.GETDUTY, 0x02C00000000, 0x1FF00000000⟩, ⟨.SETDUTY, 0x12C00000000, 0x1FF00000000⟩,
  ⟨.GETOCEN, 0x03000000000, 0x1FF00000000⟩, ⟨.ENABLE, 0x13000000001, 0x1FF00000001⟩,
  ⟨.DISABLE, 0x13000000000, 0x1FF00000001⟩, ⟨.GETSSPSC, 0x03400000000, 0x1FF00000000⟩,
  ⟨.GETSSARR, 0x03800000000, 0x1FF00000000⟩, ⟨.GETBUSYCNT, 0x03C00000000, 0x1FF00000000⟩]

/-- The mnemonics of the rows a word matches. -/
def matchingRows (t : TxnWord) : List Mnemonic := (opRows.filter (fun r => t &&& r.mask == r.pattern)).map (·.mnemonic)

/-- The row an instruction belongs to. -/
def mnemonicOf (i : Instr) : Mnemonic :=
  match i with
  | .setfin _ _ => .SETFIN
  | .getfin _ => .GETFIN
  | .setftgt _ _ => .SETFTGT
  | .getftgt _ => .GETFTGT
  | .setfsmp _ _ => .SETFSMP
  | .getfsmp _ => .GETFSMP
  | .setcmd _ _ => .SETCMD
  | .getcmd _ => .GETCMD
  | .getdivpsc _ => .GETDIVPSC
  | .getdivarr _ => .GETDIVARR
  | .getdivst _ => .GETDIVST
  | .getctrl _ => .GETCTRL
  | .init _ => .INIT
  | .ssstart _ => .SSSTART
  | .ctarm _ => .CTARM
  | .getstatus _ => .GETSTATUS
  | .getpsc _ => .GETPSC
  | .getmaxduty _ => .GETMAXDUTY
  | .getduty _ => .GETDUTY
  | .setduty _ _ => .SETDUTY
  | .getocen _ => .GETOCEN
  | .enable _ => .ENABLE
  | .disable _ => .DISABLE
  | .getsspsc _ => .GETSSPSC
  | .getssarr _ => .GETSSARR
  | .getbusycnt _ => .GETBUSYCNT

/-- The requester an instruction carries. -/
def requesterOf (i : Instr) : Requester :=
  match i with
  | .setfin rq _ => rq
  | .getfin rq => rq
  | .setftgt rq _ => rq
  | .getftgt rq => rq
  | .setfsmp rq _ => rq
  | .getfsmp rq => rq
  | .setcmd rq _ => rq
  | .getcmd rq => rq
  | .getdivpsc rq => rq
  | .getdivarr rq => rq
  | .getdivst rq => rq
  | .getctrl rq => rq
  | .init rq => rq
  | .ssstart rq => rq
  | .ctarm rq => rq
  | .getstatus rq => rq
  | .getpsc rq => rq
  | .getmaxduty rq => rq
  | .getduty rq => rq
  | .setduty rq _ => rq
  | .getocen rq => rq
  | .enable rq => rq
  | .disable rq => rq
  | .getsspsc rq => rq
  | .getssarr rq => rq
  | .getbusycnt rq => rq

/-! ### The host's numbering of a word -/

/-- The 42 lines of `req` taken from a number whose bit n is bit n of the word, all bits at and above `nbits` being 0. A
number has bits for every line; bits 42 and up have no line on the port (DESIGN CHOICE, safe, log 7). -/
def wordOfNat (nbits w : Nat) : TxnWord := BitVec.ofNat 42 (w % 2 ^ nbits)

/-- The instruction the decoder reads from an instruction whose bits are `w`. -/
def decodeTableWord (nbits w : Nat) : Option Instr :=
  match decode (wordOfNat nbits w) with
  | .ok i => some i
  | .error _ => none

end Sys2Proof
end

