-- ==== Sys2Proof/Config.lean ====
section
/-! DEFINITION. What the spec leaves OPEN (spec/92_eei_decisions.md, "Open parameters, gathered"; spec/00_scope.md R6, R10):
constants with no body, so that no proof can see their value and every statement holds for all admissible values.
A positive number is written as one more than a free number. -/

namespace Sys2Proof

/-- `PIN_SETUP_SUPPORTED` (D13, R144): whether step 4 of construction can complete. Log 3. -/
opaque Config.pinSetupSupported : Bool

/-- `PRIO_SS - 1` and `PRIO_CT - 1` (D19): the priorities are positive integers, equal or not. Log 4. -/
opaque Config.prioBelow : Source → Nat

/-- `ENC.len(command) - 1` (D21, R175): the number of `tick()` calls a transmission lasts is at least 1. Log 5. -/
opaque Config.encLenBelow : Command → Nat

/-- Which step the outside world attempts at the n-th moment at which nothing has been placed on the agenda
(R10: the choice of the next step is open; 93 U2, U5, U6, U7: any value). Log 2. -/
opaque Config.environment : Nat → Event

/-- The priority of a source, a positive integer; a larger number is more urgent (R6, R203). -/
def Config.prio (src : Source) : Nat := Config.prioBelow src + 1

/-- `ENC.len(command)`, at least 1 (R175). -/
def Config.encLen (c : Command) : Nat := Config.encLenBelow c + 1

end Sys2Proof
end

