-- ==== Sys2Proof/Machine/State.lean ====
section
/-! DEFINITION. The state of the block (spec/10_state.md R20: the whole list, grouped by the unit the table names), the
reasons a step can stop, and the state after reset (R50, R220). Plain data: no field is a function. -/

namespace Sys2Proof.Machine

/-- Unit `DIV`: the frequency operands of the calculator (R22, R23). -/
structure DivUnit where
  /-- `FIN`: input clock frequency operand, Hz. -/
  fin : Word
  /-- `FTGT`: target carrier frequency operand, Hz. -/
  ftgt : Word
deriving DecidableEq, Repr, Inhabited

/-- Unit `CAR`: the carrier counter, its comparator and its output flop (R32 to R35, R38). -/
structure CarUnit where
  /-- `PSC`: carrier prescaler. -/
  psc : Half
  /-- `ARR`: carrier reload count, the maximum duty. -/
  arr : Half
  /-- `DUTY`: comparator threshold. -/
  duty : Half
  /-- `OCEN`: output-compare channel armed. -/
  ocen : Bool
  /-- `CNT`: carrier counter. -/
  cnt : Half
  /-- `PCNT`: carrier prescaler counter. -/
  pcnt : Half
  /-- `CEN`: carrier counter running. -/
  cen : Bool
  /-- `CLKEN`: clock gate of the carrier counter open. -/
  clken : Bool
  /-- `OUT`: output flop that drives `ir_out`. -/
  out : Bool
deriving DecidableEq, Repr, Inhabited

/-- Unit `DRV`: the construction state (R38, R39). -/
structure DrvUnit where
  /-- `PINRT`: output pin routed to the comparator channel. -/
  pinrt : Bool
  /-- `MODEN`: modulator set up; drives `mod_en`. -/
  moden : Bool
  /-- `READY`: construction completed. -/
  ready : Bool
  /-- `CFGERR`: construction failed (sticky). -/
  cfgerr : Bool
  /-- `CFGCAUSE`: cause of the failure. -/
  cfgcause : BitVec 3
deriving DecidableEq, Repr, Inhabited

/-- Unit `SS`: the sample timer (R24, R36, R40). -/
structure SsUnit where
  /-- `FSMP`: sample rate operand, Hz. -/
  fsmp : Word
  /-- `SSPSC`: sample timer prescaler. -/
  sspsc : Half
  /-- `SSARR`: sample timer reload count. -/
  ssarr : Half
  /-- `SSCNT`: sample timer counter. -/
  sscnt : Half
  /-- `SSPCNT`: sample timer prescaler counter. -/
  sspcnt : Half
  /-- `SSEN`: sample timer running. -/
  ssen : Bool
  /-- `SSPEND`: sample interrupt pending flag. -/
  sspend : Bool
deriving DecidableEq, Repr, Inhabited

/-- Unit `CT`: the command trigger (R25, R37, R41, R42). -/
structure CtUnit where
  /-- `CMDVAL`: the fixed command. -/
  cmdval : Command
  /-- `BTNQ`: level of `btn` at the previous clock edge. -/
  btnq : Bool
  /-- `CTEN`: command trigger armed. -/
  cten : Bool
  /-- `CTPEND`: edge-pending flag. -/
  ctpend : Bool
  /-- `BUSYERR`: an EncoderBusy was reported (sticky). -/
  busyerr : Bool
  /-- `BUSYCNT`: number of EncoderBusy reports, saturating. -/
  busycnt : Word
deriving DecidableEq, Repr, Inhabited

/-- The phase `PH` of a stack entry (R46): which step of the handler sequence comes next. -/
inductive Phase where
  /-- 1: entered. -/
  | entered
  /-- 2: locked, encoder call in progress. -/
  | locked
  /-- 3: returned and unlocked. -/
  | returned
  /-- 4: acknowledged. -/
  | acked
deriving DecidableEq, Repr, Inhabited

/-- An entry of `STK`: the pair (`src`, `PH`) (R46). -/
structure Entry where
  src : Source
  ph : Phase
deriving DecidableEq, Repr, Inhabited

/-- `CALL`: the encoder operation in progress (R48). -/
inductive Call where
  | none
  | tick
  | load
deriving DecidableEq, Repr, Inhabited

/-- Unit `DSP`: the dispatcher (R46 to R48). -/
structure Dispatcher where
  /-- `STK`: active handler sequences, top first. -/
  stk : List Entry
  /-- `LOCK`: the priority-ceiling lock is held by the top context. -/
  lock : Bool
  /-- `CALL`: the encoder call in progress. -/
  call : Call
deriving DecidableEq, Repr, Inhabited

/-- `ES` with the internals the contract fixes (R49, R175): while `Transmitting`, the command being sent and how many calls
of `tick()` have returned since the `load` that began it. -/
inductive EncState where
  | idle
  | transmitting (cmd : Command) (ticks : Nat)
deriving DecidableEq, Repr, Inhabited

/-- The result the encoder signals on `enc_ret` (R13). -/
inductive EncResult where
  | ok
  | encoderBusy
deriving DecidableEq, Repr, Inhabited

/-- The external encoder `ENC`, as far as its contract and its call interface give it (R13, R49, R171 to R176). -/
structure Encoder where
  /-- `ES`. -/
  es : EncState
  /-- The MODEL's: the 17 bits last driven on `enc_load` (DESIGN CHOICE, log 6). -/
  arg : Command
  /-- The MODEL's: the return signalled on `enc_ret` and not yet taken by the dispatcher (DESIGN CHOICE, log 6). -/
  ret : Option EncResult
deriving DecidableEq, Repr, Inhabited

/-- The whole state. -/
structure State where
  div : DivUnit
  car : CarUnit
  drv : DrvUnit
  ss : SsUnit
  ct : CtUnit
  dsp : Dispatcher
  enc : Encoder
  /-- The MODEL's: port `rsp`, the response given in the step just taken, if that step answered a transaction
  (DESIGN CHOICE, log 1). -/
  rsp : Option Response
  /-- The MODEL's: ports `enc_tick` and `enc_load`, the encoder call started in the step just taken: the pulse of R157, which
  lasts one step (DESIGN CHOICE, log 1). -/
  started : Call
  /-- The MODEL's: the steps the outside world is about to attempt, first first (DESIGN CHOICE, log 2). -/
  agenda : List Event
  /-- The MODEL's: how many steps have been chosen by `Config.environment` so far (DESIGN CHOICE,
  log 2). -/
  envTime : Nat
deriving DecidableEq, Repr, Inhabited

/-- The faults. There is none: no word "traps or raises an interrupt" (R86), no arithmetic exception, bus time-out, watchdog
or parity error exists (R193), and nothing in the block is undefined (93). Errors are response codes or values of state. -/
inductive Fault where
deriving DecidableEq, Repr

/-- The refusals. -/
inductive Refusal where
  /-- The instruction has no meaning in this model. Raised by an arm of `exec` only; no arm does, so it is never raised.
  Safe: no next state is claimed. -/
  | notModelled (mnemonic : String)
deriving DecidableEq, Repr

/-- What a step answers. -/
abbrev Result := Host.Outcome State Fault Refusal

/-- Straight after `RESET`: every element 0, `STK` empty, `LOCK = 0`, `CALL = none`, `ES = Idle` (R50, R220). The fields that
are the model's own: no response given, no call started, nothing placed on the agenda, no step chosen yet
(DESIGN CHOICE, unsafe, logs 1, 2, 6). -/
def State.reset : State where
  div := { fin := 0, ftgt := 0 }
  car := { psc := 0, arr := 0, duty := 0, ocen := false, cnt := 0, pcnt := 0, cen := false, clken := false, out := false }
  drv := { pinrt := false, moden := false, ready := false, cfgerr := false, cfgcause := 0 }
  ss := { fsmp := 0, sspsc := 0, ssarr := 0, sscnt := 0, sspcnt := 0, ssen := false, sspend := false }
  ct := { cmdval := 0, btnq := false, cten := false, ctpend := false, busyerr := false, busycnt := 0 }
  dsp := { stk := [], lock := false, call := .none }
  enc := { es := .idle, arg := 0, ret := .none }
  rsp := .none
  started := .none
  agenda := []
  envTime := 0

end Sys2Proof.Machine
end

