-- ==== Sys2Proof/Machine/Operands.lean ====
section
/-! DEFINITION. Operand forms and the numbers the named sets stand for: how each instruction narrows its immediate
(spec/30_encoding.md R83, spec/20_memory.md R63), zero extension on a read, the numbers of response codes, causes and
phases (spec/60_exceptions.md R190, spec/10_state.md R31, R46), and the response word (R82). -/

namespace Sys2Proof.Machine

/-- `imm32[15:0]`, what `SETDUTY` stores; bits 31:16 are dropped (R83). -/
def narrowDuty (imm : Word) : Half := imm.extractLsb' 0 16

/-- `imm32[16:0]`, what `SETCMD` stores; bits 31:17 are dropped (R83). -/
def narrowCommand (imm : Word) : Command := imm.extractLsb' 0 17

/-- `CODE` = bits 7:0 of the command (R25). -/
def commandCode (c : Command) : BitVec 8 := c.extractLsb' 0 8

/-- `ADDRESS` = bits 15:8 of the command (R25). -/
def commandAddress (c : Command) : BitVec 8 := c.extractLsb' 8 8

/-- `REPEAT` = bit 16 of the command (R25). -/
def commandRepeat (c : Command) : Bool := c.getLsbD 16

/-- `zext_32` of a 16-bit register (R7). -/
def zext16 (v : Half) : Word := v.setWidth 32

/-- `zext_32` of the 17-bit command register (R7). -/
def zext17 (v : Command) : Word := v.setWidth 32

/-- `zext_32` of a one-bit register (R7). -/
def zext1 (b : Bool) : Word := (BitVec.ofBool b).setWidth 32

/-- The 4-bit response code (R190). -/
def codeBits (c : RespCode) : BitVec 4 :=
  match c with
  | .ok => 0
  | .cfgTz => 1
  | .cfgRz => 2
  | .cfgNeg => 3
  | .cfgPov => 4
  | .cfgPin => 5
  | .eAddr => 8
  | .eRo => 9
  | .eNotrdy => 10
  | .eState => 11
  | .eCmd => 12
  | .eAcc => 13

/-- The 3-bit cause (R31 field `CFGCAUSE`, R104, R144). -/
def causeBits (c : CfgCause) : BitVec 3 :=
  match c with
  | .targetZero => 1
  | .ratioZero => 2
  | .reloadNegative => 3
  | .prescalerOverflow => 4
  | .pinSetup => 5

/-- The response code of a ConfigurationError: the cause's number (R190). -/
def causeCode (c : CfgCause) : RespCode :=
  match c with
  | .targetZero => .cfgTz
  | .ratioZero => .cfgRz
  | .reloadNegative => .cfgNeg
  | .prescalerOverflow => .cfgPov
  | .pinSetup => .cfgPin

/-- The number of a phase, 1 to 4 (R46). -/
def phaseNumber (p : Phase) : Nat :=
  match p with
  | .entered => 1
  | .locked => 2
  | .returned => 3
  | .acked => 4

/-- The 36-bit response word `CODE‖RDATA` on port `rsp` (R82). -/
def rspWord (p : Response) : RspWord := codeBits p.code ++ p.rdata

/-- The response code of a word that is no instruction (R86, R190). -/
def refusalCode (e : DecodeError) : RespCode :=
  match e with
  | .addr => .eAddr
  | .acc => .eAcc
  | .ro => .eRo
  | .cmd => .eCmd

end Sys2Proof.Machine
end

