-- ==== Sys2Proof/Machine/Ops.lean ====
section
/-! DEFINITION. The operations every meaning is written with: replacing one unit of the state, ending a transaction with a
response (spec/00_scope.md R7 `respond`, spec/60_exceptions.md R190), the `require … else respond(…)` of the instruction
rules, the current priority (R203), and taking an interrupt (`ENTER`, R198) with the return from it (`EXIT`, R202). The
synchronous errors transfer no control: an error response is all there is of them (60, opening; R190). -/

namespace Sys2Proof.Machine

/-! ### Replacing one unit -/

def State.withDiv (s : State) (u : DivUnit) : State := { s with div := u }
def State.withCar (s : State) (u : CarUnit) : State := { s with car := u }
def State.withDrv (s : State) (u : DrvUnit) : State := { s with drv := u }
def State.withSs (s : State) (u : SsUnit) : State := { s with ss := u }
def State.withCt (s : State) (u : CtUnit) : State := { s with ct := u }
def State.withDsp (s : State) (u : Dispatcher) : State := { s with dsp := u }
def State.withEnc (s : State) (u : Encoder) : State := { s with enc := u }

/-- The state with its inputs (agenda, count of free choices) and its response port as given: what is left to the outside
world when the block itself is reset. -/
def State.withPorts (s : State) (rsp : Option Response) (agenda : List Event) (envTime : Nat) : State :=
  { s with rsp := rsp, agenda := agenda, envTime := envTime }

/-! ### Ending a transaction -/

/-- `respond(code, data)` (R7). -/
def respond (c : RespCode) (data : Word) (s : State) : State := { s with rsp := some ⟨c, data⟩ }

/-- `require b else respond(c, 0)`, then the rest (R107 and every instruction rule). -/
def require (b : Bool) (c : RespCode) (s rest : State) : State := if b then rest else respond c 0 s

/-- The requester check of every instruction outside the PWM surface: `require RQ = 0 else respond(E_ACC, 0)` (R73). -/
def requireHost (rq : Requester) (s rest : State) : State := require (rq == .host) .eAcc s rest

/-- The check of the PWM surface: `require READY = 1 else respond(E_NOTRDY, 0)` (R120). -/
def requireReady (s rest : State) : State := require s.drv.ready .eNotrdy s rest

/-- A read that only the host may make: it answers the value and changes nothing (R64, R73). -/
def hostRead (rq : Requester) (v : Word) (s : State) : State := requireHost rq s (respond .ok v s)

/-- A read of the PWM surface (R120). -/
def surfaceRead (v : Word) (s : State) : State := requireReady s (respond .ok v s)

/-! ### Interrupts: priority, taking one, returning from one -/

/-- The pending flag of a source (R195). -/
def pending (src : Source) (s : State) : Bool :=
  match src with
  | .ss => s.ss.sspend
  | .ct => s.ct.ctpend

/-- The other source. -/
def other (src : Source) : Source :=
  match src with
  | .ss => .ct
  | .ct => .ss

/-- The source has an entry on `STK`. -/
def onStack (src : Source) (d : Dispatcher) : Bool := d.stk.any (fun e => e.src == src)

/-- The current priority `cur`, the priorities of the two sources given (R203). -/
def currentPriority (prio : Source → Nat) (d : Dispatcher) : Nat :=
  match d.stk with
  | [] => 0
  | e :: _ => if d.lock then max (prio .ss) (prio .ct) else prio e.src

/-- `ENTER(s)` is enabled (R198): pending, not on `STK`, above the current priority, and no other source that is pending
and not on `STK` is more urgent. -/
def enterEnabled (prio : Source → Nat) (src : Source) (s : State) : Bool :=
  pending src s && !onStack src s.dsp && decide (currentPriority prio s.dsp < prio src) &&
    !(pending (other src) s && !onStack (other src) s.dsp && decide (prio src < prio (other src)))

/-- TAKING AN INTERRUPT, `ENTER(s)` (R198): the entry (`s`, 1) is pushed on `STK` and nothing else changes. No register is
saved, no return address is recorded, the pending flag stays set. -/
def takeInterrupt (src : Source) (s : State) : State :=
  s.withDsp { s.dsp with stk := ⟨src, .entered⟩ :: s.dsp.stk }

/-- RETURNING FROM AN INTERRUPT, `EXIT` (R202): the top entry is popped; nothing is restored, because nothing was saved. -/
def leaveInterrupt (s : State) : State := s.withDsp { s.dsp with stk := s.dsp.stk.tail }

/-- The top entry is the given source in the given phase (R197). -/
def topIs (src : Source) (ph : Phase) (d : Dispatcher) : Bool :=
  match d.stk with
  | [] => false
  | e :: _ => e == ⟨src, ph⟩

/-- `STK` with the phase of its top entry replaced (R197, column "PH after"). -/
def setTopPhase (ph : Phase) (stk : List Entry) : List Entry :=
  match stk with
  | [] => []
  | e :: rest => { e with ph := ph } :: rest

end Sys2Proof.Machine
end

