-- ==== Sys2Proof/Machine/Flags.lean ====
section
/-! DEFINITION. The status flags (spec/10_state.md R27): the `STATUS` view that gathers them (R31, R147), the setting of the
failure flags of construction (R39, R140), the report of an EncoderBusy (R42, R183), and the clearing of a pending flag
(R201). -/

namespace Sys2Proof.Machine

/-- The 16 implemented bits of `STATUS`, bit 15 `OUT` down to bit 0 `READY` (R31, R147). -/
def statusBits (s : State) : BitVec 16 :=
  BitVec.ofBool s.car.out ++ BitVec.ofBool s.ct.busyerr ++ BitVec.ofBool s.ct.ctpend ++ BitVec.ofBool s.ct.cten ++
    BitVec.ofBool s.ss.sspend ++ BitVec.ofBool s.ss.ssen ++ BitVec.ofBool s.drv.moden ++ BitVec.ofBool s.drv.pinrt ++
    BitVec.ofBool s.car.ocen ++ BitVec.ofBool s.car.cen ++ BitVec.ofBool s.car.clken ++ s.drv.cfgcause ++
    BitVec.ofBool s.drv.cfgerr ++ BitVec.ofBool s.drv.ready

/-- A failed construction: `CFGERR <- 1; CFGCAUSE <- c; respond(c, 0)` (R140). -/
def failConstruction (c : CfgCause) (s : State) : State :=
  respond (causeCode c) 0 (s.withDrv { s.drv with cfgerr := true, cfgcause := causeBits c })

/-- `BUSYCNT + 1`, saturating at 0xFFFFFFFF (R183). -/
def saturatingSucc (n : Word) : Word := if n = 0xFFFFFFFF then 0xFFFFFFFF else n + 1

/-- Reporting an EncoderBusy: `BUSYERR <- 1` and the counter advanced (R183). -/
def reportBusy (s : State) : State :=
  s.withCt { s.ct with busyerr := true, busycnt := saturatingSucc s.ct.busycnt }

/-- `SSPEND <- 0` or `CTPEND <- 0` (R201). -/
def clearPending (src : Source) (s : State) : State :=
  match src with
  | .ss => s.withSs { s.ss with sspend := false }
  | .ct => s.withCt { s.ct with ctpend := false }

end Sys2Proof.Machine
end

