-- ==== Sys2Proof/Machine/Carrier.lean ====
section
/-! DEFINITION. Unit `CAR` (spec/41_carrier_pwm.md): the seven instructions of the PWM surface and the `CLK` step of the
carrier counter, its comparator and its output flop. -/

namespace Sys2Proof.Machine

/-- `ENABLE` (R121): `OCEN <- 1`. -/
def execEnable (_rq : Requester) (s : State) : Result :=
  .next (requireReady s (respond .ok 0 (s.withCar { s.car with ocen := true })))

/-- `DISABLE` (R122): `OCEN <- 0`; the counter's run state is not touched. -/
def execDisable (_rq : Requester) (s : State) : Result :=
  .next (requireReady s (respond .ok 0 (s.withCar { s.car with ocen := false })))

/-- `GETOCEN` (R123). -/
def execGetocen (_rq : Requester) (s : State) : Result := .next (surfaceRead (zext1 s.car.ocen) s)

/-- `GETDUTY` (R124). -/
def execGetduty (_rq : Requester) (s : State) : Result := .next (surfaceRead (zext16 s.car.duty) s)

/-- `SETDUTY imm32` (R125): `DUTY <- imm32[15:0]`, with no bounds validation. -/
def execSetduty (_rq : Requester) (imm : Word) (s : State) : Result :=
  .next (requireReady s (respond .ok 0 (s.withCar { s.car with duty := narrowDuty imm })))

/-- `GETMAXDUTY` (R126): the current reload count. -/
def execGetmaxduty (_rq : Requester) (s : State) : Result := .next (surfaceRead (zext16 s.car.arr) s)

/-- `GETPSC` (R129): not part of the surface, needs no `READY`. -/
def execGetpsc (rq : Requester) (s : State) : Result := .next (hostRead rq (zext16 s.car.psc) s)

/-- The counting of `CNT` and `PCNT` at a clock edge, `CEN = 1` (R127). -/
def carCount (c : CarUnit) : CarUnit :=
  if c.pcnt = c.psc then { c with pcnt := 0, cnt := if c.cnt = c.arr then 0 else c.cnt + 1 }
  else { c with pcnt := c.pcnt + 1 }

/-- The `CLK` step of `CAR`, every right-hand side read before the edge; `pinrt` is `PINRT` (R127). -/
def carClk (pinrt : Bool) (c : CarUnit) : CarUnit :=
  if c.clken then
    { (if c.cen then carCount c else c) with out := pinrt && c.ocen && decide (c.cnt < c.duty) }
  else c

end Sys2Proof.Machine
end

