-- ==== Sys2Proof/Machine/ClockDivider.lean ====
section
/-! DEFINITION. Unit `DIV` (spec/40_clock_divider.md): the function `ClockDivider` and the seven instructions that reach it. -/

namespace Sys2Proof.Machine

/-- `ceil(ratio / 65536)` with the exact quotient (R102): the number `p`, one more than the prescaler. -/
def ceilPrescale (ratio : Nat) : Nat := ratio / 65536 + (if ratio % 65536 = 0 then 0 else 1)

/-- `ClockDivider(i, t)` (R100), computed on the exact numbers and narrowed at the end. The checks stand in the order of
spec/90_conflicts.md C3: target zero, ratio zero, reload count negative, prescaler above 65535 (DEDUCED, safe, log 8). -/
def clockDivider (i t : Word) : Except CfgCause DividerConfig :=
  if t = 0 then .error .targetZero
  else
    let ratio := i.toNat / t.toNat
    if ratio = 0 then .error .ratioZero
    else
      let p := ceilPrescale ratio
      let q := ratio / p
      if q = 0 then .error .reloadNegative
      else if 65536 < p then .error .prescalerOverflow
      else .ok ⟨BitVec.ofNat 16 (p - 1), BitVec.ofNat 16 (q - 1)⟩

/-- The view `DIVPSC` (R29): the prescaler, 0 on failure. -/
def divPscView (u : DivUnit) : Word :=
  match clockDivider u.fin u.ftgt with
  | .ok d => zext16 d.prescaler
  | .error _ => 0

/-- The view `DIVARR` (R29): the reload count, 0 on failure. -/
def divArrView (u : DivUnit) : Word :=
  match clockDivider u.fin u.ftgt with
  | .ok d => zext16 d.reloadCount
  | .error _ => 0

/-- The view `DIVST` (R29): 0, or `(c << 1) | 1` on a failure with cause `c`. -/
def divStView (u : DivUnit) : Word :=
  match clockDivider u.fin u.ftgt with
  | .ok _ => 0
  | .error c => ((causeBits c).setWidth 32 <<< 1) ||| 1

/-- `SETFIN imm32` (R107). -/
def execSetfin (rq : Requester) (imm : Word) (s : State) : Result :=
  .next (requireHost rq s (respond .ok 0 (s.withDiv { s.div with fin := imm })))

/-- `GETFIN` (R108). -/
def execGetfin (rq : Requester) (s : State) : Result := .next (hostRead rq s.div.fin s)

/-- `SETFTGT imm32` (R109). -/
def execSetftgt (rq : Requester) (imm : Word) (s : State) : Result :=
  .next (requireHost rq s (respond .ok 0 (s.withDiv { s.div with ftgt := imm })))

/-- `GETFTGT` (R110). -/
def execGetftgt (rq : Requester) (s : State) : Result := .next (hostRead rq s.div.ftgt s)

/-- `GETDIVPSC` (R111). -/
def execGetdivpsc (rq : Requester) (s : State) : Result := .next (hostRead rq (divPscView s.div) s)

/-- `GETDIVARR` (R112). -/
def execGetdivarr (rq : Requester) (s : State) : Result := .next (hostRead rq (divArrView s.div) s)

/-- `GETDIVST` (R113). -/
def execGetdivst (rq : Requester) (s : State) : Result := .next (hostRead rq (divStView s.div) s)

end Sys2Proof.Machine
end

