-- ==== Sys2Proof/Machine/Sampler.lean ====
section
/-! DEFINITION. Unit `SS` (spec/43_sample_scheduler.md): the five instructions of the sample timer and its `CLK` step. -/

namespace Sys2Proof.Machine

/-- `SETFSMP imm32` (R151). -/
def execSetfsmp (rq : Requester) (imm : Word) (s : State) : Result :=
  .next (requireHost rq s (respond .ok 0 (s.withSs { s.ss with fsmp := imm })))

/-- `GETFSMP` (R152). -/
def execGetfsmp (rq : Requester) (s : State) : Result := .next (hostRead rq s.ss.fsmp s)

/-- The start of the timer once the checks have passed: a failure of the calculator is answered and changes nothing
(R153, D28). -/
def startSampling (s : State) : State :=
  match clockDivider s.div.fin s.ss.fsmp with
  | .error c => respond (causeCode c) 0 s
  | .ok d =>
    respond .ok 0
      (s.withSs { s.ss with sspsc := d.prescaler, ssarr := d.reloadCount, sspcnt := 0, sscnt := 0, ssen := true })

/-- `SSSTART` (R153). -/
def execSsstart (rq : Requester) (s : State) : Result :=
  .next (requireHost rq s (requireReady s (require (!s.ss.ssen) .eState s (startSampling s))))

/-- `GETSSPSC` (R154). -/
def execGetsspsc (rq : Requester) (s : State) : Result := .next (hostRead rq (zext16 s.ss.sspsc) s)

/-- `GETSSARR` (R156). -/
def execGetssarr (rq : Requester) (s : State) : Result := .next (hostRead rq (zext16 s.ss.ssarr) s)

/-- This clock edge is the overflow event of the sample timer (R155). -/
def ssOverflows (u : SsUnit) : Bool := u.ssen && u.sspcnt == u.sspsc && u.sscnt == u.ssarr

/-- The `CLK` step of `SS`, every right-hand side read before the edge (R155). -/
def ssClk (u : SsUnit) : SsUnit :=
  if u.ssen then
    if u.sspcnt = u.sspsc then
      if u.sscnt = u.ssarr then { u with sspcnt := 0, sscnt := 0, sspend := true }
      else { u with sspcnt := 0, sscnt := u.sscnt + 1 }
    else { u with sspcnt := u.sspcnt + 1 }
  else u

end Sys2Proof.Machine
end

