-- ==== Sys2Proof/Machine/Trigger.lean ====
section
/-! DEFINITION. Unit `CT` (spec/44_command_trigger.md): the four instructions of the command trigger and the `CLK` step of its
edge detector. -/

namespace Sys2Proof.Machine

/-- `SETCMD imm32` (R177): frozen once the trigger is armed. -/
def execSetcmd (rq : Requester) (imm : Word) (s : State) : Result :=
  .next (requireHost rq s
    (require (!s.ct.cten) .eState s (respond .ok 0 (s.withCt { s.ct with cmdval := narrowCommand imm }))))

/-- `GETCMD` (R179). -/
def execGetcmd (rq : Requester) (s : State) : Result := .next (hostRead rq (zext17 s.ct.cmdval) s)

/-- `CTARM` (R180). -/
def execCtarm (rq : Requester) (s : State) : Result :=
  .next (requireHost rq s (requireReady s
    (require (!s.ct.cten) .eState s (respond .ok 0 (s.withCt { s.ct with cten := true })))))

/-- `GETBUSYCNT` (R181): the read does not clear the counter. -/
def execGetbusycnt (rq : Requester) (s : State) : Result := .next (hostRead rq s.ct.busycnt s)

/-- The `CLK` step of `CT`: a falling edge while armed sets `CTPEND`; `BTNQ` follows the input at every edge (R178). -/
def ctClk (btn : Bool) (u : CtUnit) : CtUnit :=
  { u with btnq := btn, ctpend := u.ctpend || (u.cten && u.btnq && !btn) }

end Sys2Proof.Machine
end

