-- ==== Sys2Proof/Machine/Clock.lean ====
section
/-! DEFINITION. The clock agent and the reset agent (spec/00_scope.md R9): one `CLK(btn)` step advances the three clocked
units all at once and all from the state before the edge; `RESET` returns every element of the block to its reset value. -/

namespace Sys2Proof.Machine

/-- `CLK(btn)` (R9, R127, R155, R178). -/
def clkStep (btn : Bool) (s : State) : State :=
  { s with car := carClk s.drv.pinrt s.car, ss := ssClk s.ss, ct := ctClk btn s.ct }

/-- `RESET` (R220): every element of the block and the encoder at its reset value. What the outside world is about to attempt
is not the block's and stays. -/
def resetStep (s : State) : State := State.reset.withPorts none s.agenda s.envTime

end Sys2Proof.Machine
end

