-- ==== Sys2Proof/Machine/Driver.lean ====
section
/-! DEFINITION. Unit `DRV` (spec/42_driver_init.md): the four steps of construction, the command `INIT`, and the reads
`GETSTATUS` and `GETCTRL`. -/

namespace Sys2Proof.Machine

/-- The reset/release cycle on the carrier timer's own reset line: these eight elements and no other (R141, R222). -/
def peripheralReset (c : CarUnit) : CarUnit :=
  { c with psc := 0, arr := 0, duty := 0, cnt := 0, pcnt := 0, cen := false, ocen := false, out := false }

/-- Step 1 (R141): `CLKEN <- 1`, then the peripheral reset. -/
def initStep1 (s : State) : State := s.withCar (peripheralReset { s.car with clken := true })

/-- Step 2 when the calculator succeeds (R142): the prescaler, the reload count and half of it as the duty. -/
def initStep2 (d : DividerConfig) (s : State) : State :=
  s.withCar { s.car with psc := d.prescaler, arr := d.reloadCount, duty := d.reloadCount >>> 1 }

/-- Step 3 (R143): `CEN <- 1`. -/
def initStep3 (s : State) : State := s.withCar { s.car with cen := true }

/-- Step 4 when the pin and modulator setup completes (R144). -/
def initStep4 (s : State) : State := s.withDrv { s.drv with pinrt := true, moden := true, ready := true }

/-- The four steps of construction in order, for either value of `PIN_SETUP_SUPPORTED` (R140, R148). -/
def construct (pinSetupSupported : Bool) (s : State) : State :=
  let s1 := initStep1 s
  match clockDivider s1.div.fin s1.div.ftgt with
  | .error c => failConstruction c s1
  | .ok d =>
    let s3 := initStep3 (initStep2 d s1)
    if pinSetupSupported then respond .ok 0 (initStep4 s3) else failConstruction .pinSetup s3

/-- `INIT` (R140), performed once only (R145). -/
def execInit (rq : Requester) (s : State) : Result :=
  .next (requireHost rq s (require (!s.drv.ready && !s.drv.cfgerr) .eState s (construct Config.pinSetupSupported s)))

/-- `GETSTATUS` (R147): reading clears nothing. -/
def execGetstatus (rq : Requester) (s : State) : Result := .next (hostRead rq (zext16 (statusBits s)) s)

/-- `GETCTRL` (R149): `CTRL` stores nothing. -/
def execGetctrl (rq : Requester) (s : State) : Result := .next (hostRead rq 0 s)

end Sys2Proof.Machine
end

