-- ==== Sys2Proof/Machine/Dispatch.lean ====
section
/-! DEFINITION. What the port does with each instruction, one arm per constructor (spec/30_encoding.md R84). -/

namespace Sys2Proof.Machine

def exec (i : Instr) (s : State) : Host.Outcome State Fault Refusal :=
  match i with
  | .setfin rq imm => Sys2Proof.Machine.execSetfin rq imm s
  | .getfin rq => Sys2Proof.Machine.execGetfin rq s
  | .setftgt rq imm => Sys2Proof.Machine.execSetftgt rq imm s
  | .getftgt rq => Sys2Proof.Machine.execGetftgt rq s
  | .setfsmp rq imm => Sys2Proof.Machine.execSetfsmp rq imm s
  | .getfsmp rq => Sys2Proof.Machine.execGetfsmp rq s
  | .setcmd rq imm => Sys2Proof.Machine.execSetcmd rq imm s
  | .getcmd rq => Sys2Proof.Machine.execGetcmd rq s
  | .getdivpsc rq => Sys2Proof.Machine.execGetdivpsc rq s
  | .getdivarr rq => Sys2Proof.Machine.execGetdivarr rq s
  | .getdivst rq => Sys2Proof.Machine.execGetdivst rq s
  | .getctrl rq => Sys2Proof.Machine.execGetctrl rq s
  | .init rq => Sys2Proof.Machine.execInit rq s
  | .ssstart rq => Sys2Proof.Machine.execSsstart rq s
  | .ctarm rq => Sys2Proof.Machine.execCtarm rq s
  | .getstatus rq => Sys2Proof.Machine.execGetstatus rq s
  | .getpsc rq => Sys2Proof.Machine.execGetpsc rq s
  | .getmaxduty rq => Sys2Proof.Machine.execGetmaxduty rq s
  | .getduty rq => Sys2Proof.Machine.execGetduty rq s
  | .setduty rq imm => Sys2Proof.Machine.execSetduty rq imm s
  | .getocen rq => Sys2Proof.Machine.execGetocen rq s
  | .enable rq => Sys2Proof.Machine.execEnable rq s
  | .disable rq => Sys2Proof.Machine.execDisable rq s
  | .getsspsc rq => Sys2Proof.Machine.execGetsspsc rq s
  | .getssarr rq => Sys2Proof.Machine.execGetssarr rq s
  | .getbusycnt rq => Sys2Proof.Machine.execGetbusycnt rq s

end Sys2Proof.Machine
end

