-- ==== Sys2Proof/Machine/EncoderContract.lean ====
section
/-! DEFINITION. The external encoder `ENC`, by its contract (spec/44_command_trigger.md R171 to R176): what its two operations
do to `ES`, what they return, and which transactions it may issue during a call. Everything else about it is open. -/

namespace Sys2Proof.Machine

/-- `tick()` at its return: a no-op in `Idle`; in `Transmitting` the n-th call after the `load`, n = `len(command)`, returns
to `Idle`, the earlier ones stay in `Transmitting` (R172, R175). -/
def encTick (len : Command → Nat) (es : EncState) : EncState :=
  match es with
  | .idle => .idle
  | .transmitting c n => if n + 1 < len c then .transmitting c (n + 1) else .idle

/-- `load(command)` at its return: from `Idle` the command is taken and the transmission begins; from `Transmitting` nothing
changes (R173). -/
def encLoad (c : Command) (es : EncState) : EncState :=
  match es with
  | .idle => .transmitting c 0
  | .transmitting c' n => .transmitting c' n

/-- What `load` returns (R173). -/
def encLoadResult (es : EncState) : EncResult :=
  match es with
  | .idle => .ok
  | .transmitting _ _ => .encoderBusy

/-- A word that would write `DUTY` (0x2C) or `OCEN` (0x30). -/
def writesWaveform (t : TxnWord) : Bool := weOf t && (addrOf t == 0x2C || addrOf t == 0x30)

/-- A word at an aligned and mapped address, which the port never answers with `E_ADDR` (R62, R65). -/
def addressesRegister (t : TxnWord) : Bool := (regAt (addrOf t)).isSome

/-- The encoder may issue this word now: an encoder call is in progress and has not returned (R73, R174), it is not a
`tick()` in `Idle`, which issues nothing (R172), and a `load` that will be rejected writes neither `DUTY` nor `OCEN` (R173).
The word addresses a register: an error inside a handler is only ever `E_ACC` or `E_RO` (R205). That a register off the PWM
surface may be addressed, and the word is then refused, is DEDUCED from the same rule (safe, log 10). -/
def encMayIssue (t : TxnWord) (s : State) : Bool :=
  addressesRegister t && s.enc.ret.isNone &&
    match s.dsp.call with
    | .none => false
    | .tick => s.enc.es != .idle
    | .load => s.enc.es == .idle || !writesWaveform t

/-- The encoder can signal its return on `enc_ret`: a call is in progress and has not returned yet (R174). -/
def encReturnEnabled (s : State) : Bool := s.dsp.call != .none && s.enc.ret.isNone

/-- The encoder signals its return (R172, R173, R176): a step of its own (DESIGN CHOICE, safe, log 9), at which `ES` changes
(DESIGN CHOICE, unsafe inside a call, log 6). What the one-bit result of `enc_ret` shows when `tick()` returns is open, since
`tick()` has no result (R157, R200) and R13 names only `Ok` and `EncoderBusy`: the model shows `Ok` (DESIGN CHOICE, log 14),
and nothing reads it. -/
def encReturn (s : State) : State :=
  match s.dsp.call with
  | .none => s
  | .tick => s.withEnc { s.enc with es := encTick Config.encLen s.enc.es, ret := some .ok }
  | .load => s.withEnc { s.enc with es := encLoad s.enc.arg s.enc.es, ret := some (encLoadResult s.enc.es) }

end Sys2Proof.Machine
end

