-- ==== Sys2Proof/Machine/HandlerSequence.lean ====
section
/-! DEFINITION. The dispatcher's handler sequence (spec/60_exceptions.md R197 to R202) with the particulars of `SS`
(spec/43_sample_scheduler.md R157, R158) and `CT` (spec/44_command_trigger.md R182, R183). -/

namespace Sys2Proof.Machine

/-- The encoder operation the handler of a source calls (R195, R199). -/
def callOf (src : Source) : Call :=
  match src with
  | .ss => .tick
  | .ct => .load

/-- `LOCK` (R199): take the lock, start the encoder call, `PH <- 2`. The call's start is signalled
in this step alone, on `enc_tick` (pulsed, R157) or on `enc_load` with the 17 bits of `CMDVAL` (R182). -/
def lockStep (src : Source) (s : State) : State :=
  { s with
    dsp := { stk := setTopPhase .locked s.dsp.stk, lock := true, call := callOf src }
    enc := { s.enc with arg := (if src = .ct then s.ct.cmdval else s.enc.arg), ret := none }
    started := callOf src }

/-- Release the lock and end the call, `PH <- 3`: `RETURN` without its report (R200). -/
def unlock (s : State) : State :=
  { s with
    dsp := { stk := setTopPhase .returned s.dsp.stk, lock := false, call := .none }
    enc := { s.enc with ret := none } }

/-- `RETURN` (R200): the lock is released and the result taken; for `CT` an `EncoderBusy` is reported (R183). -/
def returnStep (src : Source) (s : State) : State :=
  if src = .ct ∧ s.enc.ret = some .encoderBusy then reportBusy (unlock s) else unlock s

/-- `ACK` (R201): clear the pending flag of the source, `PH <- 4`. -/
def ackStep (src : Source) (s : State) : State :=
  (clearPending src s).withDsp { s.dsp with stk := setTopPhase .acked s.dsp.stk }

/-- When each step is enabled (R197, column "enabled when"). -/
def dspEnabled (prio : Source → Nat) (k : DspStep) (src : Source) (s : State) : Bool :=
  match k with
  | .enter => enterEnabled prio src s
  | .lock => topIs src .entered s.dsp
  | .ret => topIs src .locked s.dsp && s.enc.ret.isSome
  | .ack => topIs src .returned s.dsp
  | .exit => topIs src .acked s.dsp

/-- The effect of each step (R197, column "effect"). -/
def dspEffect (k : DspStep) (src : Source) (s : State) : State :=
  match k with
  | .enter => takeInterrupt src s
  | .lock => lockStep src s
  | .ret => returnStep src s
  | .ack => ackStep src s
  | .exit => leaveInterrupt s

end Sys2Proof.Machine
end

