-- ==== Sys2Proof/Machine/Agents.lean ====
section
/-! DEFINITION. The agents and their steps (spec/00_scope.md R9 to R11): which step is attempted next, whether it is enabled,
and what it does. A step that is not enabled is not taken: attempting it changes nothing (DESIGN CHOICE, safe,
log 2). -/

namespace Sys2Proof.Machine

/-- The port answers one word (R60, R85, R86): an instruction is executed; any other word is answered with its code, data 0,
and changes nothing. -/
def runWord (t : TxnWord) (s : State) : Result :=
  match decode t with
  | .ok i => exec i s
  | .error e => .next (respond (refusalCode e) 0 s)

/-- A transaction is enabled (R11, R73): the host's only while `STK` is empty, the encoder's only during its call. -/
def txnEnabled (t : TxnWord) (s : State) : Bool :=
  match rqOf t with
  | .host => s.dsp.stk.isEmpty
  | .encoder => encMayIssue t s

/-- A step is enabled (R9, R10, R11, R197). A clock edge and a reset always are (R206 item 5, R220). -/
def eventEnabled (e : Event) (s : State) : Bool :=
  match e with
  | .clk _ => true
  | .txn t => txnEnabled t s
  | .dsp k src => dspEnabled Config.prio k src s
  | .encReturn => encReturnEnabled s
  | .reset => true

/-- The effect of an enabled step. -/
def eventEffect (e : Event) (s : State) : Result :=
  match e with
  | .clk btn => .next (clkStep btn s)
  | .txn t => runWord t s
  | .dsp k src => .next (dspEffect k src s)
  | .encReturn => .next (encReturn s)
  | .reset => .next (resetStep s)

/-- An attempted step: its effect if it is enabled, nothing otherwise. -/
def runEvent (e : Event) (s : State) : Result := if eventEnabled e s then eventEffect e s else .next s

/-- The step attempted next: the first of the agenda, or the outside world's free choice when nothing is placed there. -/
def nextEvent (s : State) : Event :=
  match s.agenda with
  | e :: _ => e
  | [] => Config.environment s.envTime

/-- The state once that choice is consumed: no response stands on `rsp` and no encoder call is started unless
this step does so (log 1). -/
def consume (s : State) : State :=
  match s.agenda with
  | _ :: rest => { s with started := .none }.withPorts none rest s.envTime
  | [] => { s with started := .none }.withPorts none [] (s.envTime + 1)

/-- A call of the encoder is in progress that lets it issue every word it may ever issue: `load` from `Idle`, `tick()` from
`Transmitting` (R172, R173). -/
def openCall (s : State) : State :=
  { s with
    dsp := (if s.enc.es = .idle then ⟨[⟨.ct, .locked⟩], true, .load⟩ else ⟨[⟨.ss, .locked⟩], true, .tick⟩)
    enc := { s.enc with ret := none } }

/-- No handler sequence is active, so the host is the context that executes (R11). -/
def closeSequences (s : State) : State := s.withDsp ⟨[], false, .none⟩

/-- The issuer of the word is the agent that may act now; nothing changes where it already is (R11, R73). -/
def letIssue (t : TxnWord) (s : State) : State :=
  if txnEnabled t s then s
  else
    match rqOf t with
    | .host => closeSequences s
    | .encoder => openCall s

/-- The word placed first on the agenda, with its issuer able to act. -/
def placeWord (t : TxnWord) (s : State) : State :=
  (letIssue t s).withPorts s.rsp (.txn t :: s.agenda) s.envTime

end Sys2Proof.Machine
end

