-- ==== Sys2Proof/Machine/Step.lean ====
section
/-! DEFINITION. One step of the machine: the step the outside world attempts next (spec/00_scope.md R9, R10). -/

namespace Sys2Proof.Machine

/-- One step of one agent. -/
def step (s : State) : Host.Outcome State Fault Refusal := runEvent (nextEvent s) (consume s)

/-- `s` with the word of that number about to be issued on port `req`: it is the first entry of the agenda, and its issuer is
the agent that may act (DESIGN CHOICE, safe, log 7). -/
def State.withFetchWord (s : State) (nbits w : Nat) : State := placeWord (wordOfNat nbits w) s

end Sys2Proof.Machine
end

