-- ==== Sys2Proof/Machine/Ports.lean ====
section
/-! DEFINITION. The output ports of the block as functions of its state (spec/00_scope.md R13). -/

namespace Sys2Proof.Machine

/-- `ir_out`: the carrier output pin, the value of `OUT`. -/
def irOut (s : State) : Bool := s.car.out

/-- `mod_en`: the modulator enable line, the value of `MODEN`. -/
def modEn (s : State) : Bool := s.drv.moden

/-- `ss_irq`: the request line of the sample interrupt, the value of `SSPEND`. -/
def ssIrq (s : State) : Bool := pending .ss s

/-- `ct_irq`: the request line of the command interrupt, the value of `CTPEND`. -/
def ctIrq (s : State) : Bool := pending .ct s

/-- `rsp`: the 36-bit response word given in the step just taken, if there is one (R82). -/
def rspPort (s : State) : Option RspWord := s.rsp.map rspWord

/-- `enc_tick`, which starts `tick()`: pulsed in the step just taken, which is then a `LOCK` of `SS` (R13, R157). -/
def encTickPort (s : State) : Bool := s.started == .tick

/-- `enc_load(cmd)`, which starts `load(cmd)`: these 17 bits are driven in the step just taken, which is then a `LOCK` of `CT`
(R13, R182). -/
def encLoadPort (s : State) : Option Command := if s.started = .load then some s.enc.arg else none

end Sys2Proof.Machine
end

