-- ==== Sys2Proof/Machine/Runs.lean ====
section
/-! DEFINITION. Runs and weak fairness (spec/00_scope.md R10, R12; spec/44_command_trigger.md R174). What the outside world
attempts at each moment of a run is written out as a sequence of steps, so that a statement can speak of every choice. -/

namespace Sys2Proof.Machine

/-- `s` with this step, and no other, attempted next. -/
def State.offer (s : State) (e : Event) : State := s.withPorts s.rsp [e] s.envTime

/-- `r` is a run in which the step `env n` is attempted at the n-th moment (R10, R12). A step that is attempted while it is not
enabled is not taken, and the state stays but for its outputs (logs 1, 2). -/
def Run (env : Nat → Event) (r : Nat → State) : Prop := ∀ n, step ((r n).offer (env n)) = .next (r (n + 1))

/-- Some step of the kind `A` is enabled. -/
def canTake (A : Event → Prop) (s : State) : Prop := ∃ e, A e ∧ eventEnabled e s = true

/-- A step of the kind `A` is taken at the n-th moment: it is attempted and enabled. -/
def takes (A : Event → Prop) (env : Nat → Event) (r : Nat → State) (n : Nat) : Prop :=
  A (env n) ∧ eventEnabled (env n) (r n) = true

/-- R10: "a step that stays enabled is eventually taken", for the steps of the kind `A`. -/
def FairFor (A : Event → Prop) (env : Nat → Event) (r : Nat → State) : Prop :=
  ∀ n, (∀ m, n ≤ m → canTake A (r m)) → ∃ m, n ≤ m ∧ takes A env r m

/-- R10: "the clock keeps running". The level of `btn` is an input of the step and is not chosen by fairness. -/
def ClockFair (env : Nat → Event) (r : Nat → State) : Prop := FairFor (fun e => ∃ b, e = .clk b) env r

/-- R10: "an enabled `ENTER` is eventually taken", and so is each of the dispatcher's other steps. -/
def DispatcherFair (env : Nat → Event) (r : Nat → State) : Prop := ∀ k src, FairFor (fun e => e = .dsp k src) env r

/-- R10, R174: an encoder call returns; its sequence of transactions is finite. -/
def EncoderFair (env : Nat → Event) (r : Nat → State) : Prop := FairFor (fun e => e = .encReturn) env r

/-- R10: the host, while no handler sequence is active, goes on to its next transaction. -/
def HostFair (env : Nat → Event) (r : Nat → State) : Prop := FairFor (fun e => ∃ t, e = .txn t ∧ rqOf t = .host) env r

/-- R10: the run is weakly fair. Not forced by fairness (DEDUCED, safe, log 11): a transaction of the encoder, which may issue
none in a call (R174), and the hardware reset, without which a run goes on for ever (R12). -/
structure WeaklyFair (env : Nat → Event) (r : Nat → State) : Prop where
  clock : ClockFair env r
  dispatcher : DispatcherFair env r
  encoder : EncoderFair env r
  host : HostFair env r

end Sys2Proof.Machine
end

