-- ==== Sys2Proof/Safety.lean ====
section
/-! DEFINITION. What holds in every state a run reaches (spec/10_state.md R43, R39; spec/60_exceptions.md R203, R205), and the
words in which statements speak of a step: which instruction it issues, and runs of clock edges. -/

namespace Sys2Proof.Safety

open Sys2Proof.Machine

/-- R43, its items 1 to 5 and 7 to 9, with R39's range of `CFGCAUSE`. (Item 6 speaks of two moments and is stated as a
property of steps.) -/
structure Consistent (s : State) : Prop where
  /-- Item 1. -/
  cnt_le : s.car.cnt ≤ s.car.arr
  pcnt_le : s.car.pcnt ≤ s.car.psc
  sscnt_le : s.ss.sscnt ≤ s.ss.ssarr
  sspcnt_le : s.ss.sspcnt ≤ s.ss.sspsc
  /-- Item 2. -/
  ready_built : s.drv.ready = true →
    s.car.clken = true ∧ s.car.cen = true ∧ s.drv.pinrt = true ∧ s.drv.moden = true ∧ s.drv.cfgerr = false
  /-- Item 3. -/
  failed_iff : s.drv.cfgerr = true ↔ s.drv.cfgcause ≠ 0
  /-- R39: the cause of a failure is one of 1 to 5. -/
  cause_le : s.drv.cfgcause ≤ 5
  /-- Item 4. -/
  ocen_ready : s.car.ocen = true → s.drv.ready = true
  ssen_ready : s.ss.ssen = true → s.drv.ready = true
  cten_ready : s.ct.cten = true → s.drv.ready = true
  /-- Item 5. -/
  sspend_ssen : s.ss.sspend = true → s.ss.ssen = true
  ctpend_cten : s.ct.ctpend = true → s.ct.cten = true
  /-- Item 7. -/
  stk_nodup : (s.dsp.stk.map (·.src)).Nodup
  lock_top : s.dsp.lock = true → ∃ src rest, s.dsp.stk = ⟨src, .locked⟩ :: rest
  call_iff : s.dsp.call ≠ .none ↔ s.dsp.lock = true
  /-- Item 8. -/
  busy_iff : s.ct.busyerr = true ↔ s.ct.busycnt ≠ 0
  /-- Item 9. -/
  out_pinrt : s.car.out = true → s.drv.pinrt = true

/-- How handler sequences nest (R46, R205): at most two, the upper one strictly more urgent; only the top one can be in its
critical section, it then holds the lock (R199), and the call in progress is its own (R195). -/
structure Nested (s : State) : Prop where
  depth_le : s.dsp.stk.length ≤ 2
  upper_more_urgent : ∀ a b, s.dsp.stk = [a, b] → Config.prio b.src < Config.prio a.src
  below_unlocked : ∀ e ∈ s.dsp.stk.tail, e.ph ≠ .locked
  top_locked : ∀ src rest, s.dsp.stk = ⟨src, .locked⟩ :: rest → s.dsp.lock = true
  call_of_top : ∀ e rest, s.dsp.lock = true → s.dsp.stk = e :: rest → s.dsp.call = callOf e.src
  ret_in_call : s.enc.ret ≠ none → s.dsp.call ≠ .none
  ticks_below_len : ∀ c n, s.enc.es = .transmitting c n → n < Config.encLen c

/-- A handler sequence is active only when `READY = 1`, since a source is only on then (R205, with R43 items 4 and 5). -/
def ActiveOnlyWhenReady (s : State) : Prop := s.dsp.stk ≠ [] → s.drv.ready = true

/-- Before the first `INIT` the carrier timer and the routing bits hold their reset values (R141, R222). -/
def Pristine (s : State) : Prop :=
  s.drv.ready = false → s.drv.cfgerr = false → s.car = State.reset.car ∧ s.drv = State.reset.drv

/-- The step attempted next issues an instruction of the given row. -/
def Issues (m : Mnemonic) (e : Event) : Prop := ∃ t i, e = .txn t ∧ decode t = .ok i ∧ mnemonicOf i = m

/-- The state after n clock edges with nothing in between, `btn k` being the level at the k-th. -/
def clkSteps (btn : Nat → Bool) (n : Nat) (s : State) : State :=
  match n with
  | 0 => s
  | k + 1 => clkStep (btn k) (clkSteps btn k s)

/-- `(PSC + 1) * (ARR + 1)`, the carrier period in clock edges (R128). -/
def carrierPeriod (c : CarUnit) : Nat := (c.psc.toNat + 1) * (c.arr.toNat + 1)

/-- `(SSPSC + 1) * (SSARR + 1)`, the sample period in clock edges (R159). -/
def samplePeriod (u : SsUnit) : Nat := (u.sspsc.toNat + 1) * (u.ssarr.toNat + 1)

/-- How many clock edges a list of steps holds. -/
def clkCount (es : List Event) : Nat := es.countP (fun e => match e with | .clk _ => true | _ => false)

/-- `s` with these steps, and no others, placed on the agenda. -/
def withAgenda (s : State) (es : List Event) : State := s.withPorts s.rsp es s.envTime

end Sys2Proof.Safety
end

