-- ==== Sys2Proof/Certificates/Slice0/Obligations.lean ====
section
/-! DEFINITION. The statements for the provers. Each docstring names the rule of spec/ it formalises; one that rests on a
choice of the model says so and names the log entry. A next state is written out in full wherever that is the frame. -/

open Sys2Proof Sys2Proof.Machine Sys2Proof.Safety

/-! ### Words and decoding -/

/-- R80 to R85: decoding the word of an instruction gives the instruction back, with every operand at every value. -/
def Obligations.DecodeOfEncode : Prop := ∀ i : Instr, decode (encode i) = .ok i

/-- R80, R81: encoding what a word decodes to gives the word with its ignored bits cleared. -/
def Obligations.EncodeOfDecodeIsCanonical : Prop := ∀ (t : TxnWord) (i : Instr), decode t = .ok i → encode i = canonical t

/-- R84: a word is the instruction of a row exactly when it matches that row, no word matches two rows, bit 41 is in no mask,
and a word that matches no row is illegal. -/
def Obligations.DecoderAgreesWithOpcodeMap : Prop :=
  opRows.length = 26 ∧ (opRows.map (·.mnemonic)).Nodup ∧ (∀ r ∈ opRows, r.mask.getLsbD 41 = false) ∧
  (∀ (t : TxnWord) (i : Instr), decode t = .ok i → matchingRows t = [mnemonicOf i]) ∧
  (∀ (t : TxnWord) (e : DecodeError), decode t = .error e → matchingRows t = [])

/-- R86, with 90_conflicts.md C10 for the encoder: what each illegal encoding answers; it changes nothing else.
Data bits above a register's width make no word illegal and are ignored. -/
def Obligations.IllegalWordsAreRefused : Prop :=
  ∀ (t : TxnWord) (s : State),
    (((addrOf t).toNat % 4 ≠ 0 ∨ 0x40 ≤ (addrOf t).toNat) → runWord t s = .next { s with rsp := some ⟨.eAddr, 0⟩ }) ∧
    (weOf t = true → addrOf t ∈ [0x10, 0x14, 0x18, 0x20, 0x24, 0x28, 0x34, 0x38, 0x3C] →
      runWord t s = .next
        { s with rsp := some ⟨if rqOf t = .encoder ∧ addrOf t ≠ 0x28 then .eAcc else .eRo, 0⟩ }) ∧
    (weOf t = true → addrOf t = 0x1C → wdataOf t ∉ [1, 2, 3] →
      runWord t s = .next { s with rsp := some ⟨if rqOf t = .encoder then .eAcc else .eCmd, 0⟩ }) ∧
    (weOf t = true → addrOf t ∈ [0x00, 0x04, 0x08, 0x0C, 0x2C, 0x30] → ∃ i, decode t = .ok i) ∧
    (∀ (rq : Requester) (w : Word), exec (.setcmd rq w) s = exec (.setcmd rq (w &&& 0x1FFFF)) s ∧
      exec (.setduty rq w) s = exec (.setduty rq (w &&& 0xFFFF)) s ∧
      decode (txnWord rq 1#1 0x30 w) = decode (txnWord rq 1#1 0x30 (w &&& 1)))

/-- 95_test_vectors.md: words of each family written out in the spec decode to the instruction they stand for. -/
def Obligations.SampleWordsDecode : Prop :=
  decode 0x10000F42400 = .ok (.setfin .host 16000000) ∧ decode 0x000DEADBEEF = .ok (.getfin .host) ∧
  decode 0x13000000001 = .ok (.enable .host) ∧ decode 0x33000000000 = .ok (.disable .encoder) ∧
  decode 0x12C00010005 = .ok (.setduty .host 0x10005) ∧ decode 0x11C00000001 = .ok (.init .host) ∧
  decode 0x02000000000 = .ok (.getstatus .host) ∧ decode 0x11C00000002 = .ok (.ssstart .host) ∧
  decode 0x10800004E20 = .ok (.setfsmp .host 20000) ∧ decode 0x11C00000003 = .ok (.ctarm .host) ∧
  decode 0x10C00000408 = .ok (.setcmd .host 0x408) ∧ decode 0x11C80000001 = .error .cmd ∧
  decode 0x32000000001 = .error .acc ∧ decode 0x32800000001 = .error .ro ∧ decode 0x24400000000 = .error .addr

/-! ### The port -/

/-- R82: every word is answered with one response word `CODE‖RDATA`; `RDATA` is 0 for every write and for every answer that
is not `OK`. -/
def Obligations.EveryWordIsAnswered : Prop :=
  ∀ (t : TxnWord) (s : State), ∃ u p, runWord t s = .next u ∧ u.rsp = some p ∧
    (rspWord p).extractLsb' 32 4 = codeBits p.code ∧ (rspWord p).extractLsb' 0 32 = p.rdata ∧
    (weOf t = true → p.rdata = 0) ∧ (p.code ≠ .ok → p.rdata = 0)

/-- R190: the numbers of the codes, which instructions give each and for which cause; an error response changes nothing,
except a ConfigurationError from `INIT`, which records its cause. -/
def Obligations.ResponseCodesGiven : Prop :=
  [RespCode.ok, .cfgTz, .cfgRz, .cfgNeg, .cfgPov, .cfgPin, .eAddr, .eRo, .eNotrdy, .eState, .eCmd, .eAcc].map codeBits =
    [0, 1, 2, 3, 4, 5, 8, 9, 10, 11, 12, 13] ∧
  ∀ (t : TxnWord) (s u : State) (p : Response), runWord t s = .next u → u.rsp = some p →
    p.code ≠ .cfgNeg ∧ p.code ≠ .cfgPov ∧
    (p.code = .cfgTz → (Issues .INIT (.txn t) ∧ s.div.ftgt = 0) ∨ (Issues .SSSTART (.txn t) ∧ s.ss.fsmp = 0)) ∧
    (p.code = .cfgRz → (Issues .INIT (.txn t) ∧ s.div.fin < s.div.ftgt) ∨
      (Issues .SSSTART (.txn t) ∧ s.div.fin < s.ss.fsmp)) ∧
    (p.code = .cfgPin → Issues .INIT (.txn t) ∧ Config.pinSetupSupported = false) ∧
    (p.code = .eAddr → (addrOf t).toNat % 4 ≠ 0 ∨ 0x40 ≤ (addrOf t).toNat) ∧
    (p.code = .eRo → weOf t = true ∧ addrOf t ∈ [0x10, 0x14, 0x18, 0x20, 0x24, 0x28, 0x34, 0x38, 0x3C]) ∧
    (p.code = .eNotrdy → s.drv.ready = false ∧
      ∃ m ∈ [Mnemonic.ENABLE, .DISABLE, .GETOCEN, .GETDUTY, .SETDUTY, .GETMAXDUTY, .SSSTART, .CTARM], Issues m (.txn t)) ∧
    (p.code = .eState →
      (Issues .INIT (.txn t) ∧ (s.drv.ready = true ∨ s.drv.cfgerr = true)) ∨
      (Issues .SSSTART (.txn t) ∧ s.ss.ssen = true) ∨ (Issues .CTARM (.txn t) ∧ s.ct.cten = true) ∨
      (Issues .SETCMD (.txn t) ∧ s.ct.cten = true)) ∧
    (p.code = .eCmd → weOf t = true ∧ addrOf t = 0x1C ∧ wdataOf t ∉ [1, 2, 3]) ∧
    (p.code = .eAcc → rqOf t = .encoder ∧ addrOf t ∉ [0x28, 0x2C, 0x30]) ∧
    (p.code ≠ .ok → u = { s with rsp := some p } ∨
      (Issues .INIT (.txn t) ∧ p.code ∈ [RespCode.cfgTz, .cfgRz, .cfgPin] ∧ u.drv.cfgerr = true ∧
        u.drv.cfgcause.setWidth 4 = codeBits p.code))

/-- R194: the checks in their order; the first that fails decides the code. -/
def Obligations.FirstFailingCheckDecides : Prop :=
  ∀ (t : TxnWord) (s : State), ∃ u p, runWord t s = .next u ∧ u.rsp = some p ∧
    p.code =
      if (addrOf t).toNat % 4 ≠ 0 ∨ 0x40 ≤ (addrOf t).toNat then .eAddr
      else if rqOf t = .encoder ∧ addrOf t ∉ [0x28, 0x2C, 0x30] then .eAcc
      else if weOf t = true ∧ addrOf t ∈ [0x10, 0x14, 0x18, 0x20, 0x24, 0x28, 0x34, 0x38, 0x3C] then .eRo
      else if weOf t = true ∧ addrOf t = 0x1C ∧ wdataOf t ∉ [1, 2, 3] then .eCmd
      else if (addrOf t ∈ [0x28, 0x2C, 0x30] ∨ (weOf t = true ∧ addrOf t = 0x1C ∧ wdataOf t ∈ [2, 3])) ∧
        s.drv.ready = false then .eNotrdy
      else if (weOf t = true ∧ addrOf t = 0x1C ∧ wdataOf t = 1 ∧ (s.drv.ready = true ∨ s.drv.cfgerr = true)) ∨
        (weOf t = true ∧ addrOf t = 0x1C ∧ wdataOf t = 2 ∧ s.ss.ssen = true) ∨
        (weOf t = true ∧ addrOf t = 0x1C ∧ wdataOf t = 3 ∧ s.ct.cten = true) ∨
        (weOf t = true ∧ addrOf t = 0x0C ∧ s.ct.cten = true) then .eState
      else if weOf t = true ∧ addrOf t = 0x1C ∧ wdataOf t = 1 then
        (if s.div.ftgt = 0 then .cfgTz else if s.div.fin < s.div.ftgt then .cfgRz
          else if Config.pinSetupSupported = true then .ok else .cfgPin)
      else if weOf t = true ∧ addrOf t = 0x1C ∧ wdataOf t = 2 then
        (if s.ss.fsmp = 0 then .cfgTz else if s.div.fin < s.ss.fsmp then .cfgRz else .ok)
      else .ok

/-! ### The step -/

/-- R9, R60: a step whose next event is an enabled transaction is the execution of the decoded instruction, or the answer to
a word that is none, in the state with the event consumed. How the next event stands in the state is the model's choice (log 2),
and so is that consuming it clears the outputs of the step before (log 1). -/
def Obligations.StepRunsTheWord : Prop :=
  (∀ (s : State) (t : TxnWord), nextEvent s = .txn t → txnEnabled t (consume s) = true →
    (∀ i, decode t = .ok i → step s = exec i (consume s)) ∧
    (∀ e, decode t = .error e → step s = .next { consume s with rsp := some ⟨refusalCode e, 0⟩ })) ∧
  (∀ (s : State) (e : Event) (rest : List Event), s.agenda = e :: rest →
    nextEvent s = e ∧ consume s = { s with rsp := none, started := .none, agenda := rest }) ∧
  (∀ s : State, s.agenda = [] →
    nextEvent s = Config.environment s.envTime ∧
    consume s = { s with rsp := none, started := .none, envTime := s.envTime + 1 })

/-- Log 7 (the model's own interface): a placed word is the one the very next step runs, whatever the state, and where its
issuer can already act nothing but the event is added. That no output of the step before stands in `s'` is log 1. -/
def Obligations.PlacedWordRunsNext : Prop :=
  ∀ (s : State) (nbits w : Nat) (i : Instr), decode (wordOfNat nbits w) = .ok i →
    ∃ s', step (s.withFetchWord nbits w) = exec i s' ∧ s'.div = s.div ∧ s'.car = s.car ∧ s'.drv = s.drv ∧ s'.ss = s.ss ∧
      s'.ct = s.ct ∧ s'.enc.es = s.enc.es ∧ s'.rsp = none ∧ s'.agenda = s.agenda ∧ s'.envTime = s.envTime ∧
      (txnEnabled (wordOfNat nbits w) s = true → s' = { s with rsp := none, started := .none })

/-- R11, R73, R172, R173, R174, R205: a transaction of an agent that may not act is not performed: the host's while a handler
sequence is active; the encoder's outside its call, in a `tick()` from `Idle`, writing the waveform in a rejected `load`, or at
a misaligned or unmapped address (DEDUCED from the errors R205 names, log 10). That such an attempt leaves `consume s` is the model's choice (DESIGN CHOICE, logs 1, 2). -/
def Obligations.AgentsAreHeldBack : Prop :=
  ∀ (s : State) (t : TxnWord), nextEvent s = .txn t →
    (rqOf t = .host → s.dsp.stk ≠ [] → step s = .next (consume s)) ∧
    (rqOf t = .encoder → (s.dsp.call = .none ∨ s.enc.ret ≠ none) → step s = .next (consume s)) ∧
    (rqOf t = .encoder → s.dsp.call = .tick → s.enc.es = .idle → step s = .next (consume s)) ∧
    (rqOf t = .encoder → s.dsp.call = .load → s.enc.es ≠ .idle → weOf t = true → addrOf t ∈ [0x2C, 0x30] →
      step s = .next (consume s)) ∧
    (rqOf t = .encoder → ((addrOf t).toNat % 4 ≠ 0 ∨ 0x40 ≤ (addrOf t).toNat) → step s = .next (consume s))

/-- 93_implementation_defined.md: nothing in the block is undefined; every step of every state has a next state. -/
def Obligations.EveryStepCompletes : Prop := ∀ s : State, ∃ t, step s = .next t

/-- 20_memory.md section 4: a read changes nothing but the response and repeats; the writes of operands, duty and channel are
idempotent; a second `INIT`, or `SSSTART` or `CTARM` after one that succeeded, is refused with `E_STATE`. -/
def Obligations.ReadsAndRepeatedWrites : Prop :=
  (∀ (t : TxnWord) (s u : State), weOf t = false → runWord t s = .next u →
    (∃ p, u = { s with rsp := some p }) ∧ runWord t u = .next u) ∧
  (∀ (i : Instr) (s u : State),
    mnemonicOf i ∈ [Mnemonic.SETFIN, .SETFTGT, .SETFSMP, .SETCMD, .SETDUTY, .ENABLE, .DISABLE] →
      exec i s = .next u → exec i u = .next u) ∧
  (∀ s u : State, exec (.init .host) s = .next u → exec (.init .host) u = .next { u with rsp := some ⟨.eState, 0⟩ }) ∧
  (∀ s u : State, exec (.ssstart .host) s = .next u → u.rsp = some ⟨.ok, 0⟩ →
    exec (.ssstart .host) u = .next { u with rsp := some ⟨.eState, 0⟩ }) ∧
  (∀ s u : State, exec (.ctarm .host) s = .next u → u.rsp = some ⟨.ok, 0⟩ →
    exec (.ctarm .host) u = .next { u with rsp := some ⟨.eState, 0⟩ })

/-- 20_memory.md section 4 (R63, R67): a read straight after a write returns the implemented bits written, zero-extended. -/
def Obligations.WrittenValueReadsBack : Prop :=
  ∀ (s u : State) (v : Word),
    (exec (.setfin .host v) s = .next u → exec (.getfin .host) u = .next { u with rsp := some ⟨.ok, v⟩ }) ∧
    (exec (.setftgt .host v) s = .next u → exec (.getftgt .host) u = .next { u with rsp := some ⟨.ok, v⟩ }) ∧
    (exec (.setfsmp .host v) s = .next u → exec (.getfsmp .host) u = .next { u with rsp := some ⟨.ok, v⟩ }) ∧
    (s.ct.cten = false → exec (.setcmd .host v) s = .next u →
      ∃ w, exec (.getcmd .host) u = .next { u with rsp := some ⟨.ok, w⟩ } ∧ w.toNat = v.toNat % 2 ^ 17) ∧
    (s.drv.ready = true → exec (.setduty .host v) s = .next u →
      ∃ w, exec (.getduty .host) u = .next { u with rsp := some ⟨.ok, w⟩ } ∧ w.toNat = v.toNat % 2 ^ 16) ∧
    (s.drv.ready = true → exec (.enable .host) s = .next u →
      exec (.getocen .host) u = .next { u with rsp := some ⟨.ok, 1⟩ }) ∧
    (s.drv.ready = true → exec (.disable .host) s = .next u →
      exec (.getocen .host) u = .next { u with rsp := some ⟨.ok, 0⟩ })

/-! ### DIV -/

/-- R104: which inputs fail, with which cause, and that causes 3 and 4 are dead. -/
def Obligations.ClockDividerFailsExactly : Prop :=
  ∀ i t : Word,
    (clockDivider i t = .error .targetZero ↔ t = 0) ∧
    (clockDivider i t = .error .ratioZero ↔ t ≠ 0 ∧ i < t) ∧
    clockDivider i t ≠ .error .reloadNegative ∧ clockDivider i t ≠ .error .prescalerOverflow ∧
    clockDivider i t ≠ .error .pinSetup ∧
    (t ≠ 0 → t ≤ i → ∃ d, clockDivider i t = .ok d) ∧
    (i ≠ 0 → clockDivider i i = .ok ⟨0, 0⟩) ∧
    (∀ ratio : Nat, 1 ≤ ratio → ratio < 2 ^ 32 →
      1 ≤ ceilPrescale ratio ∧ ceilPrescale ratio ≤ ratio ∧ ceilPrescale ratio ≤ 65536 ∧ 1 ≤ ratio / ceilPrescale ratio)

/-- R101, R102, R103: the ratio is the floor of the quotient, the prescaler `ceil(ratio / 65536) - 1` with the exact rational
quotient, the reload count the floor of `ratio / (prescaler + 1)` less 1; the integer form of the ceiling, and where the
form with `+ 65535` in 32 bits is wrong; and the document's example. -/
def Obligations.ClockDividerValues : Prop :=
  (∀ (i t : Word) (d : DividerConfig), clockDivider i t = .ok d →
    ∃ ratio : Nat, (ratio : ℤ) = ⌊(i.toNat : ℚ) / (t.toNat : ℚ)⌋ ∧
      (d.prescaler.toNat : ℤ) = ⌈(ratio : ℚ) / 65536⌉ - 1 ∧
      (d.reloadCount.toNat : ℤ) = ((ratio / (d.prescaler.toNat + 1) : Nat) : ℤ) - 1) ∧
  (∀ r : Word, ⌈(r.toNat : ℚ) / 65536⌉ = (((r >>> 16).toNat + if r.extractLsb' 0 16 = 0 then 0 else 1 : Nat) : ℤ)) ∧
  (∀ r : Word, (((r + 65535) >>> 16).toNat : ℤ) ≠ ⌈(r.toNat : ℚ) / 65536⌉ ↔ 2 ^ 32 - 65536 < r.toNat) ∧
  (16000000 / 38000 = 421 ∧ clockDivider 16000000 38000 = .ok ⟨0, 420⟩)

/-- R105: the six laws of the calculator. -/
def Obligations.ClockDividerLaws : Prop :=
  (∀ (i t : Word) (d : DividerConfig), clockDivider i t = .ok d →
    let ratio := i.toNat / t.toNat
    let p := d.prescaler.toNat + 1
    let q := d.reloadCount.toNat + 1
    (d.prescaler.toNat ≤ 65535 ∧ d.reloadCount.toNat ≤ 65535) ∧
    (p * q ≤ ratio ∧ ratio - p * q < p) ∧
    (ratio ≤ 65536 → d.prescaler.toNat = 0 ∧ d.reloadCount.toNat = ratio - 1 ∧ p * q = ratio) ∧
    (ratio ≤ 131072 → ratio - p * q ≤ 1) ∧
    (ratio ≤ p * 65536 ∧ ∀ p', ratio ≤ p' * 65536 → p ≤ p') ∧
    (d.prescaler.toNat = 65535 ↔ 2 ^ 32 - 65535 ≤ ratio) ∧
    (d.prescaler.toNat = 65535 → d.reloadCount.toNat = 65534)) ∧
  (131073 / 2 = 65536 ∧ clockDivider 131073 1 = .ok ⟨2, 43690⟩)

/-- 95_test_vectors.md sections 2.1 and 2.3, 42_driver_init.md R140 and R147 examples: worked values. -/
def Obligations.WorkedExamples : Prop :=
  clockDivider 16000000 38000 = .ok ⟨0, 420⟩ ∧ clockDivider 65537 1 = .ok ⟨1, 32767⟩ ∧
  clockDivider 131072 1 = .ok ⟨1, 65535⟩ ∧ clockDivider 16000000 1 = .ok ⟨244, 65305⟩ ∧
  clockDivider 4294901760 1 = .ok ⟨65534, 65535⟩ ∧ clockDivider 4294967295 1 = .ok ⟨65535, 65534⟩ ∧
  clockDivider 37999 38000 = .error .ratioZero ∧ clockDivider 0 0 = .error .targetZero ∧
  statusBits (construct true (State.reset.withDiv ⟨16000000, 38000⟩)) = 0x361 ∧
  statusBits (construct false (State.reset.withDiv ⟨16000000, 38000⟩)) = 0x76 ∧
  statusBits (construct true State.reset) = 0x26 ∧
  statusBits (construct true (State.reset.withDiv ⟨37999, 38000⟩)) = 0x2A

/-- R107, R109, R151: a write of a frequency operand; accepted from the host in every state, refused from the
encoder; what the calculator makes of a stored 0. -/
def Obligations.FrequencyOperandWrites : Prop :=
  (∀ (imm : Word) (s : State),
    exec (.setfin .host imm) s = .next { s with div := { s.div with fin := imm }, rsp := some ⟨.ok, 0⟩ } ∧
    exec (.setftgt .host imm) s = .next { s with div := { s.div with ftgt := imm }, rsp := some ⟨.ok, 0⟩ } ∧
    exec (.setfsmp .host imm) s = .next { s with ss := { s.ss with fsmp := imm }, rsp := some ⟨.ok, 0⟩ } ∧
    exec (.setfin .encoder imm) s = .next { s with rsp := some ⟨.eAcc, 0⟩ } ∧
    exec (.setftgt .encoder imm) s = .next { s with rsp := some ⟨.eAcc, 0⟩ } ∧
    exec (.setfsmp .encoder imm) s = .next { s with rsp := some ⟨.eAcc, 0⟩ }) ∧
  (∀ (rq : Requester) (imm : Word), encode (.setfin rq imm) = txnWord rq 1#1 0x00 imm ∧
    encode (.setftgt rq imm) = txnWord rq 1#1 0x04 imm ∧ encode (.setfsmp rq imm) = txnWord rq 1#1 0x08 imm) ∧
  encode (.setfin .host 16000000) = 0x10000F42400 ∧ encode (.setftgt .host 38000) = 0x10400009470 ∧
  encode (.setfsmp .host 20000) = 0x10800004E20 ∧
  (∀ t : Word, clockDivider 0 t = .error (if t = 0 then .targetZero else .ratioZero)) ∧
  (∀ i : Word, clockDivider i 0 = .error .targetZero)

/-- R108, R110, R152: the reads of the frequency operands. -/
def Obligations.FrequencyOperandReads : Prop :=
  (∀ s : State,
    exec (.getfin .host) s = .next { s with rsp := some ⟨.ok, s.div.fin⟩ } ∧
    exec (.getftgt .host) s = .next { s with rsp := some ⟨.ok, s.div.ftgt⟩ } ∧
    exec (.getfsmp .host) s = .next { s with rsp := some ⟨.ok, s.ss.fsmp⟩ } ∧
    exec (.getfin .encoder) s = .next { s with rsp := some ⟨.eAcc, 0⟩ } ∧
    exec (.getftgt .encoder) s = .next { s with rsp := some ⟨.eAcc, 0⟩ } ∧
    exec (.getfsmp .encoder) s = .next { s with rsp := some ⟨.eAcc, 0⟩ }) ∧
  (∀ (rq : Requester) (w : Word), decode (txnWord rq 0#1 0x00 w) = .ok (.getfin rq) ∧
    decode (txnWord rq 0#1 0x04 w) = .ok (.getftgt rq) ∧ decode (txnWord rq 0#1 0x08 w) = .ok (.getfsmp rq))

/-- R29, R111, R112, R113: the three views of the calculator; the transaction never fails when the function does, and the
only values of `DIVST` are 0, 3 and 5. -/
def Obligations.DividerViews : Prop :=
  (∀ s : State,
    (∀ d, clockDivider s.div.fin s.div.ftgt = .ok d →
      exec (.getdivpsc .host) s = .next { s with rsp := some ⟨.ok, d.prescaler.setWidth 32⟩ } ∧
      exec (.getdivarr .host) s = .next { s with rsp := some ⟨.ok, d.reloadCount.setWidth 32⟩ } ∧
      exec (.getdivst .host) s = .next { s with rsp := some ⟨.ok, 0⟩ }) ∧
    (∀ c, clockDivider s.div.fin s.div.ftgt = .error c →
      exec (.getdivpsc .host) s = .next { s with rsp := some ⟨.ok, 0⟩ } ∧
      exec (.getdivarr .host) s = .next { s with rsp := some ⟨.ok, 0⟩ } ∧
      exec (.getdivst .host) s = .next { s with rsp := some ⟨.ok, ((causeBits c).setWidth 32 <<< 1) ||| 1⟩ }) ∧
    (∃ v : Word, v ∈ [0, 3, 5] ∧ exec (.getdivst .host) s = .next { s with rsp := some ⟨.ok, v⟩ }) ∧
    exec (.getdivpsc .encoder) s = .next { s with rsp := some ⟨.eAcc, 0⟩ } ∧
    exec (.getdivarr .encoder) s = .next { s with rsp := some ⟨.eAcc, 0⟩ } ∧
    exec (.getdivst .encoder) s = .next { s with rsp := some ⟨.eAcc, 0⟩ }) ∧
  (exec (.getdivpsc .host) State.reset = .next { State.reset with rsp := some ⟨.ok, 0⟩ } ∧
    exec (.getdivarr .host) State.reset = .next { State.reset with rsp := some ⟨.ok, 0⟩ } ∧
    exec (.getdivst .host) State.reset = .next { State.reset with rsp := some ⟨.ok, 3⟩ }) ∧
  (∀ (rq : Requester) (w : Word), decode (txnWord rq 0#1 0x10 w) = .ok (.getdivpsc rq) ∧
    decode (txnWord rq 0#1 0x14 w) = .ok (.getdivarr rq) ∧ decode (txnWord rq 0#1 0x18 w) = .ok (.getdivst rq))

/-- R129, R149, R154, R156, R181: the host's diagnostic reads, in every state. -/
def Obligations.DiagnosticReads : Prop :=
  (∀ s : State,
    exec (.getpsc .host) s = .next { s with rsp := some ⟨.ok, s.car.psc.setWidth 32⟩ } ∧
    exec (.getctrl .host) s = .next { s with rsp := some ⟨.ok, 0⟩ } ∧
    exec (.getsspsc .host) s = .next { s with rsp := some ⟨.ok, s.ss.sspsc.setWidth 32⟩ } ∧
    exec (.getssarr .host) s = .next { s with rsp := some ⟨.ok, s.ss.ssarr.setWidth 32⟩ } ∧
    exec (.getbusycnt .host) s = .next { s with rsp := some ⟨.ok, s.ct.busycnt⟩ } ∧
    exec (.getpsc .encoder) s = .next { s with rsp := some ⟨.eAcc, 0⟩ } ∧
    exec (.getctrl .encoder) s = .next { s with rsp := some ⟨.eAcc, 0⟩ } ∧
    exec (.getsspsc .encoder) s = .next { s with rsp := some ⟨.eAcc, 0⟩ } ∧
    exec (.getssarr .encoder) s = .next { s with rsp := some ⟨.eAcc, 0⟩ } ∧
    exec (.getbusycnt .encoder) s = .next { s with rsp := some ⟨.eAcc, 0⟩ }) ∧
  (∀ (rq : Requester) (w : Word), decode (txnWord rq 0#1 0x24 w) = .ok (.getpsc rq) ∧
    decode (txnWord rq 0#1 0x1C w) = .ok (.getctrl rq) ∧ decode (txnWord rq 0#1 0x34 w) = .ok (.getsspsc rq) ∧
    decode (txnWord rq 0#1 0x38 w) = .ok (.getssarr rq) ∧ decode (txnWord rq 0#1 0x3C w) = .ok (.getbusycnt rq))

/-- R147 with the layout of R31: the value `GETSTATUS` reads, bit by bit, and the examples of the rule. -/
def Obligations.StatusRead : Prop :=
  (∀ s : State, ∃ v : Word,
    exec (.getstatus .host) s = .next { s with rsp := some ⟨.ok, v⟩ } ∧
    exec (.getstatus .encoder) s = .next { s with rsp := some ⟨.eAcc, 0⟩ } ∧
    v.getLsbD 0 = s.drv.ready ∧ v.getLsbD 1 = s.drv.cfgerr ∧ v.extractLsb' 2 3 = s.drv.cfgcause ∧
    v.getLsbD 5 = s.car.clken ∧ v.getLsbD 6 = s.car.cen ∧ v.getLsbD 7 = s.car.ocen ∧ v.getLsbD 8 = s.drv.pinrt ∧
    v.getLsbD 9 = s.drv.moden ∧ v.getLsbD 10 = s.ss.ssen ∧ v.getLsbD 11 = s.ss.sspend ∧ v.getLsbD 12 = s.ct.cten ∧
    v.getLsbD 13 = s.ct.ctpend ∧ v.getLsbD 14 = s.ct.busyerr ∧ v.getLsbD 15 = s.car.out ∧ v.extractLsb' 16 16 = 0) ∧
  (∀ (rq : Requester) (w : Word), decode (txnWord rq 0#1 0x20 w) = .ok (.getstatus rq)) ∧
  statusBits State.reset = 0 ∧
  statusBits (construct true (State.reset.withDiv ⟨16000000, 38000⟩)) = 0x361 ∧
  statusBits (construct true (State.reset.withDiv ⟨37999, 38000⟩)) = 0x2A

/-! ### CAR -/

/-- R121, R122: arming and tearing down the output-compare channel, from either requester, with bits 31:1 ignored; the
counter is not touched; the silenced level 0 is reached at the next clock edge. -/
def Obligations.ChannelArmedAndSilenced : Prop :=
  (∀ (rq : Requester) (s : State), s.drv.ready = true →
    exec (.enable rq) s = .next { s with car := { s.car with ocen := true }, rsp := some ⟨.ok, 0⟩ } ∧
    exec (.disable rq) s = .next { s with car := { s.car with ocen := false }, rsp := some ⟨.ok, 0⟩ }) ∧
  (∀ (rq : Requester) (s : State), s.drv.ready = false →
    exec (.enable rq) s = .next { s with rsp := some ⟨.eNotrdy, 0⟩ } ∧
    exec (.disable rq) s = .next { s with rsp := some ⟨.eNotrdy, 0⟩ }) ∧
  (∀ (rq : Requester) (w : Word),
    decode (txnWord rq 1#1 0x30 w) = .ok (if w.getLsbD 0 = true then .enable rq else .disable rq)) ∧
  (∀ (s u : State) (rq : Requester) (b : Bool), s.drv.ready = true → s.car.clken = true →
    exec (.disable rq) s = .next u → (clkStep b u).car.out = false ∧ (clkStep b u).car.cen = s.car.cen) ∧
  (∀ (s u : State) (rq : Requester) (b : Bool), s.drv.ready = true → s.car.clken = true →
    exec (.enable rq) s = .next u → (clkStep b u).car.out = (s.drv.pinrt && decide (s.car.cnt < s.car.duty)))

/-- R123, R124, R126: the reads of the PWM surface, from either requester; the maximum duty never changes after construction
and is 0 for the ratio 1. -/
def Obligations.SurfaceReads : Prop :=
  (∀ (rq : Requester) (s : State), s.drv.ready = true →
    exec (.getocen rq) s = .next { s with rsp := some ⟨.ok, if s.car.ocen = true then 1 else 0⟩ } ∧
    exec (.getduty rq) s = .next { s with rsp := some ⟨.ok, s.car.duty.setWidth 32⟩ } ∧
    exec (.getmaxduty rq) s = .next { s with rsp := some ⟨.ok, s.car.arr.setWidth 32⟩ }) ∧
  (∀ (rq : Requester) (s : State), s.drv.ready = false →
    exec (.getocen rq) s = .next { s with rsp := some ⟨.eNotrdy, 0⟩ } ∧
    exec (.getduty rq) s = .next { s with rsp := some ⟨.eNotrdy, 0⟩ } ∧
    exec (.getmaxduty rq) s = .next { s with rsp := some ⟨.eNotrdy, 0⟩ }) ∧
  (∀ (rq : Requester) (w : Word), decode (txnWord rq 0#1 0x30 w) = .ok (.getocen rq) ∧
    decode (txnWord rq 0#1 0x2C w) = .ok (.getduty rq) ∧ decode (txnWord rq 0#1 0x28 w) = .ok (.getmaxduty rq)) ∧
  (∀ s t : State, s.drv.ready = true → step s = .next t → nextEvent s ≠ .reset → t.car.arr = s.car.arr) ∧
  (∀ i t : Word, i.toNat / t.toNat = 1 → ∃ d, clockDivider i t = .ok d ∧ d.reloadCount = 0)

/-- R125: the write of the duty: the low 16 bits, with no bounds validation, from either requester. -/
def Obligations.DutyWrite : Prop :=
  (∀ (rq : Requester) (imm : Word) (s : State),
    (s.drv.ready = true → exec (.setduty rq imm) s = .next
      { s with car := { s.car with duty := imm.extractLsb' 0 16 }, rsp := some ⟨.ok, 0⟩ }) ∧
    (s.drv.ready = false → exec (.setduty rq imm) s = .next { s with rsp := some ⟨.eNotrdy, 0⟩ })) ∧
  (∀ (rq : Requester) (w : Word), decode (txnWord rq 1#1 0x2C w) = .ok (.setduty rq w)) ∧
  (0x10000#32).extractLsb' 0 16 = 0 ∧ encode (.setduty .host 105) = 0x12C00000069 ∧
  (∀ (s u : State) (rq : Requester) (imm : Word) (b : Bool), s.drv.ready = true → s.car.clken = true →
    exec (.setduty rq imm) s = .next u →
      (clkStep b u).car.out = (s.drv.pinrt && s.car.ocen && decide (s.car.cnt < imm.extractLsb' 0 16)))

/-- R127: the clock edge of the carrier counter, every right-hand side read before the edge. -/
def Obligations.CarrierClockEdge : Prop :=
  ∀ (s : State) (b : Bool), nextEvent s = .clk b → ∃ t, step s = .next t ∧
    irOut t = t.car.out ∧ (s.car.clken = false → t.car = s.car) ∧
    (s.car.clken = true →
      t.car.out = (s.drv.pinrt && s.car.ocen && decide (s.car.cnt.toNat < s.car.duty.toNat)) ∧
      t.car.psc = s.car.psc ∧ t.car.arr = s.car.arr ∧ t.car.duty = s.car.duty ∧ t.car.ocen = s.car.ocen ∧
      t.car.cen = s.car.cen ∧ t.car.clken = true ∧
      (s.car.cen = false → t.car.cnt = s.car.cnt ∧ t.car.pcnt = s.car.pcnt) ∧
      (s.car.cen = true → s.car.pcnt = s.car.psc →
        t.car.pcnt = 0 ∧ t.car.cnt = if s.car.cnt = s.car.arr then 0 else s.car.cnt + 1) ∧
      (s.car.cen = true → s.car.pcnt ≠ s.car.psc → t.car.pcnt = s.car.pcnt + 1 ∧ t.car.cnt = s.car.cnt))

/-- R9, R51, 70_reset_and_hazards.md R221: a clock edge changes the counters, `OUT`, the pending flags and `BTNQ` only. That no
response stands on `rsp` after it (`t.rsp = none`) is the model's choice (DESIGN CHOICE, log 1). -/
def Obligations.ClockEdgeFrame : Prop :=
  ∀ (s t : State) (b : Bool), nextEvent s = .clk b → step s = .next t →
    t.div = s.div ∧ t.drv = s.drv ∧ t.dsp = s.dsp ∧ t.enc = s.enc ∧ t.rsp = none ∧
    t.car = { s.car with cnt := t.car.cnt, pcnt := t.car.pcnt, out := t.car.out } ∧
    t.ss = { s.ss with sscnt := t.ss.sscnt, sspcnt := t.ss.sspcnt, sspend := t.ss.sspend } ∧
    t.ct = { s.ct with btnq := b, ctpend := t.ct.ctpend }

/-- R128 items 1 and 2: while the channel is armed and the duty constant, `OUT` has period `(PSC + 1) * (ARR + 1)` clock edges
and is 1 after exactly `(PSC + 1) * min(d, ARR + 1)` of them in every window, once the first edge has passed. -/
def Obligations.CarrierWaveform : Prop :=
  ∀ (s : State) (btn : Nat → Bool), Consistent s → s.drv.ready = true → s.car.ocen = true →
    (∀ k, (clkSteps btn (k + 1 + carrierPeriod s.car) s).car.out = (clkSteps btn (k + 1) s).car.out) ∧
    (∀ k, (List.range (carrierPeriod s.car)).countP (fun j => (clkSteps btn (k + 1 + j) s).car.out) =
      (s.car.psc.toNat + 1) * min s.car.duty.toNat (s.car.arr.toNat + 1))

/-- R128 item 3 and its last sentence: where `OUT` rises and falls, and that it is 0 from the next edge on when the channel is
not armed. -/
def Obligations.CarrierEdges : Prop :=
  ∀ (s : State) (btn : Nat → Bool), Consistent s → s.drv.ready = true →
    (s.car.ocen = true → s.car.pcnt = s.car.psc → s.car.cnt = s.car.arr → 0 < s.car.duty.toNat →
      (clkSteps btn 1 s).car.cnt = 0 ∧ (clkSteps btn 2 s).car.out = true ∧
      (s.car.duty.toNat ≤ s.car.arr.toNat → (clkSteps btn 1 s).car.out = false)) ∧
    (s.car.ocen = true → s.car.pcnt = s.car.psc → s.car.cnt.toNat + 1 = s.car.duty.toNat →
      s.car.duty.toNat ≤ s.car.arr.toNat →
      (clkSteps btn 1 s).car.cnt = s.car.duty ∧ (clkSteps btn 1 s).car.out = true ∧
      (clkSteps btn 2 s).car.out = false) ∧
    (s.car.ocen = false → ∀ k, (clkSteps btn (k + 1) s).car.out = false)

/-- R130: above the reload count the armed pin is constantly 1; within the range it is 0 after some edge of every period. -/
def Obligations.DutyAboveReload : Prop :=
  ∀ (s : State) (btn : Nat → Bool), Consistent s → s.drv.ready = true → s.car.ocen = true →
    (s.car.arr < s.car.duty → ∀ k, (clkSteps btn (k + 1) s).car.out = true) ∧
    (s.car.duty ≤ s.car.arr → ∀ k, ∃ j < carrierPeriod s.car, (clkSteps btn (k + 1 + j) s).car.out = false)

/-- R131: after a successful construction the counter is never stopped, reloaded or re-tuned until hardware reset; only a
clock edge moves `CNT` and `PCNT`; the carrier counter raises no interrupt. -/
def Obligations.CarrierNeverRetuned : Prop :=
  (∀ s t : State, Consistent s → s.drv.ready = true → step s = .next t → nextEvent s ≠ .reset →
    t.drv.ready = true ∧ t.car.cen = true ∧ t.car.clken = true ∧ t.car.psc = s.car.psc ∧ t.car.arr = s.car.arr ∧
    ((∀ b, nextEvent s ≠ .clk b) → t.car.cnt = s.car.cnt ∧ t.car.pcnt = s.car.pcnt)) ∧
  (∀ (s : State) (c : CarUnit) (b : Bool) (src : Source),
    pending src (clkStep b (s.withCar c)) = pending src (clkStep b s))

/-! ### DRV -/

/-- R140, R146: every outcome of `INIT`, for either value of `PIN_SETUP_SUPPORTED`; the bits it leaves alone are 0 before the
first `INIT` (`Pristine`, an invariant stated in `PeripheralResetIsInvisible`). -/
def Obligations.ConstructionOutcomes : Prop :=
  (∀ s : State, s.drv.ready = false → s.drv.cfgerr = false →
    (s.div.ftgt = 0 → exec (.init .host) s = .next { s with
      car := ⟨0, 0, 0, false, 0, 0, false, true, false⟩
      drv := { s.drv with cfgerr := true, cfgcause := 1 }
      rsp := some ⟨.cfgTz, 0⟩ }) ∧
    (s.div.ftgt ≠ 0 → s.div.fin < s.div.ftgt → exec (.init .host) s = .next { s with
      car := ⟨0, 0, 0, false, 0, 0, false, true, false⟩
      drv := { s.drv with cfgerr := true, cfgcause := 2 }
      rsp := some ⟨.cfgRz, 0⟩ }) ∧
    (s.div.ftgt ≠ 0 → s.div.ftgt ≤ s.div.fin → ∃ d, clockDivider s.div.fin s.div.ftgt = .ok d ∧
      exec (.init .host) s = .next (construct Config.pinSetupSupported s) ∧
      construct true s = { s with
        car := ⟨d.prescaler, d.reloadCount, d.reloadCount >>> 1, false, 0, 0, true, true, false⟩
        drv := { s.drv with pinrt := true, moden := true, ready := true }
        rsp := some ⟨.ok, 0⟩ } ∧
      construct false s = { s with
        car := ⟨d.prescaler, d.reloadCount, d.reloadCount >>> 1, false, 0, 0, true, true, false⟩
        drv := { s.drv with cfgerr := true, cfgcause := 5 }
        rsp := some ⟨.cfgPin, 0⟩ })) ∧
  (∀ s : State, (s.drv.ready = true ∨ s.drv.cfgerr = true) →
    exec (.init .host) s = .next { s with rsp := some ⟨.eState, 0⟩ }) ∧
  (∀ s : State, exec (.init .encoder) s = .next { s with rsp := some ⟨.eAcc, 0⟩ }) ∧
  encode (.init .host) = 0x11C00000001 ∧
  (∀ s : State, Pristine s → s.drv.ready = false → s.drv.cfgerr = false → s.drv = ⟨false, false, false, false, 0⟩)

/-- R145: once only; until hardware reset neither a completed nor a failed construction is ever changed, and `INIT` is
refused with no effect. -/
def Obligations.ConstructionIsFinal : Prop :=
  ∀ s t : State, (s.drv.ready = true ∨ s.drv.cfgerr = true) →
    exec (.init .host) s = .next { s with rsp := some ⟨.eState, 0⟩ } ∧
    (step s = .next t → nextEvent s ≠ .reset →
      t.drv = s.drv ∧ t.car.psc = s.car.psc ∧ t.car.arr = s.car.arr ∧ t.car.cen = s.car.cen ∧ t.car.clken = s.car.clken)

/-- 70_reset_and_hazards.md R222, 42_driver_init.md R141: before the first `INIT` the eight elements of the peripheral reset
hold their reset values, so that step 1 of construction changes `CLKEN` only. -/
def Obligations.PeripheralResetIsInvisible : Prop :=
  (∀ s : State, Pristine s → s.drv.ready = false → s.drv.cfgerr = false →
    initStep1 s = { s with car := { s.car with clken := true } }) ∧
  (∀ s t : State, Pristine s → step s = .next t → Pristine t)

/-! ### SS -/

/-- R153: every outcome of `SSSTART`. -/
def Obligations.SampleTimerStart : Prop :=
  (∀ s : State, s.drv.ready = true → s.ss.ssen = false →
    (s.ss.fsmp = 0 → exec (.ssstart .host) s = .next { s with rsp := some ⟨.cfgTz, 0⟩ }) ∧
    (s.ss.fsmp ≠ 0 → s.div.fin < s.ss.fsmp → exec (.ssstart .host) s = .next { s with rsp := some ⟨.cfgRz, 0⟩ }) ∧
    (s.ss.fsmp ≠ 0 → s.ss.fsmp ≤ s.div.fin → ∃ d, clockDivider s.div.fin s.ss.fsmp = .ok d ∧
      exec (.ssstart .host) s = .next { s with
        ss := ⟨s.ss.fsmp, d.prescaler, d.reloadCount, 0, 0, true, s.ss.sspend⟩
        rsp := some ⟨.ok, 0⟩ })) ∧
  (∀ s : State, s.drv.ready = false → exec (.ssstart .host) s = .next { s with rsp := some ⟨.eNotrdy, 0⟩ }) ∧
  (∀ s : State, s.drv.ready = true → s.ss.ssen = true →
    exec (.ssstart .host) s = .next { s with rsp := some ⟨.eState, 0⟩ }) ∧
  (∀ s : State, exec (.ssstart .encoder) s = .next { s with rsp := some ⟨.eAcc, 0⟩ }) ∧
  encode (.ssstart .host) = 0x11C00000002 ∧ clockDivider 16000000 20000 = .ok ⟨0, 799⟩

/-- R155: the clock edge of the sample timer, every right-hand side read before the edge; it is not gated by `CLKEN`. -/
def Obligations.SampleTimerClockEdge : Prop :=
  ∀ (s : State) (b : Bool), nextEvent s = .clk b → ∃ t, step s = .next t ∧
    (s.ss.ssen = false → t.ss = s.ss) ∧
    (s.ss.ssen = true → s.ss.sspcnt = s.ss.sspsc → s.ss.sscnt = s.ss.ssarr →
      t.ss = { s.ss with sspcnt := 0, sscnt := 0, sspend := true }) ∧
    (s.ss.ssen = true → s.ss.sspcnt = s.ss.sspsc → s.ss.sscnt ≠ s.ss.ssarr →
      t.ss = { s.ss with sspcnt := 0, sscnt := s.ss.sscnt + 1 }) ∧
    (s.ss.ssen = true → s.ss.sspcnt ≠ s.ss.sspsc → t.ss = { s.ss with sspcnt := s.ss.sspcnt + 1 })

/-- R159: after a successful `SSSTART` the clock edges at which the overflow event occurs are exactly the M-th, 2M-th, ...,
whatever steps of the other agents fall between them (a hardware reset apart). -/
def Obligations.SamplePeriod : Prop :=
  ∀ (s u v : State) (es : List Event), exec (.ssstart .host) s = .next u → u.rsp = some ⟨.ok, 0⟩ → .reset ∉ es →
    Sys2Proof.core.run es.length (withAgenda u es) = .next v →
      (ssOverflows v.ss = true ↔ samplePeriod u.ss ∣ clkCount es + 1)

/-! ### CT and the encoder -/

/-- R177, R179: the command register: 17 bits, frozen once the trigger is armed, readable in every state. -/
def Obligations.CommandRegister : Prop :=
  (∀ (imm : Word) (s : State),
    (s.ct.cten = false → exec (.setcmd .host imm) s = .next
      { s with ct := { s.ct with cmdval := imm.extractLsb' 0 17 }, rsp := some ⟨.ok, 0⟩ }) ∧
    (s.ct.cten = true → exec (.setcmd .host imm) s = .next { s with rsp := some ⟨.eState, 0⟩ }) ∧
    exec (.setcmd .encoder imm) s = .next { s with rsp := some ⟨.eAcc, 0⟩ } ∧
    exec (.getcmd .host) s = .next { s with rsp := some ⟨.ok, s.ct.cmdval.setWidth 32⟩ } ∧
    exec (.getcmd .encoder) s = .next { s with rsp := some ⟨.eAcc, 0⟩ }) ∧
  (∀ imm : Word, commandCode (narrowCommand imm) = imm.extractLsb' 0 8 ∧
    commandAddress (narrowCommand imm) = imm.extractLsb' 8 8 ∧ commandRepeat (narrowCommand imm) = imm.getLsbD 16) ∧
  (∀ (rq : Requester) (w : Word), decode (txnWord rq 1#1 0x0C w) = .ok (.setcmd rq w) ∧
    decode (txnWord rq 0#1 0x0C w) = .ok (.getcmd rq)) ∧
  encode (.setcmd .host 0x408) = 0x10C00000408

/-- R180: arming the trigger; an edge that straddles it is detected. -/
def Obligations.TriggerArming : Prop :=
  (∀ s : State, s.drv.ready = true → s.ct.cten = false →
    exec (.ctarm .host) s = .next { s with ct := { s.ct with cten := true }, rsp := some ⟨.ok, 0⟩ }) ∧
  (∀ s : State, s.drv.ready = false → exec (.ctarm .host) s = .next { s with rsp := some ⟨.eNotrdy, 0⟩ }) ∧
  (∀ s : State, s.drv.ready = true → s.ct.cten = true →
    exec (.ctarm .host) s = .next { s with rsp := some ⟨.eState, 0⟩ }) ∧
  (∀ s : State, exec (.ctarm .encoder) s = .next { s with rsp := some ⟨.eAcc, 0⟩ }) ∧
  encode (.ctarm .host) = 0x11C00000003 ∧
  (∀ s u : State, s.drv.ready = true → s.ct.cten = false → s.ct.btnq = true → exec (.ctarm .host) s = .next u →
    (clkStep false u).ct.ctpend = true)

/-- R178: the clock edge of the edge detector. -/
def Obligations.EdgeDetectorClockEdge : Prop :=
  (∀ (s : State) (b : Bool), nextEvent s = .clk b → ∃ t, step s = .next t ∧ t.ct.btnq = b ∧
    (s.ct.cten = true → s.ct.btnq = true → b = false → t.ct.ctpend = true) ∧
    (¬(s.ct.cten = true ∧ s.ct.btnq = true ∧ b = false) → t.ct.ctpend = s.ct.ctpend) ∧
    t.ct.cmdval = s.ct.cmdval ∧ t.ct.cten = s.ct.cten ∧ t.ct.busyerr = s.ct.busyerr ∧ t.ct.busycnt = s.ct.busycnt) ∧
  State.reset.ct.btnq = false

/-- R175: after a `load` from `Idle`, `ES` is `Transmitting` with that command until the return of the n-th `tick()`, n =
`len(command)`, at which it is `Idle`; a `load` in between alters nothing (R173). -/
def Obligations.TransmissionEnds : Prop :=
  (∀ (len : Command → Nat) (c : Command), 1 ≤ len c →
    (∀ n < len c, (encTick len)^[n] (encLoad c .idle) = .transmitting c n) ∧
    (encTick len)^[len c] (encLoad c .idle) = .idle) ∧
  (∀ c : Command, 1 ≤ Config.encLen c) ∧
  (∀ (c c' : Command) (n : Nat), encLoad c' (.transmitting c n) = .transmitting c n ∧
    encLoadResult (.transmitting c n) = .encoderBusy ∧ encLoadResult .idle = .ok) ∧
  (∀ len : Command → Nat, encTick len .idle = .idle)

/-- R176: `ES` changes only in a call of `tick()` or `load()`, or at the hardware reset. That it changes at the signal on
`enc_ret` is the model's choice (log 6). -/
def Obligations.EncoderStateChangesInCallsOnly : Prop :=
  ∀ s t : State, step s = .next t → t.enc.es ≠ s.enc.es →
    (nextEvent s = .reset ∧ t.enc.es = .idle) ∨
    (nextEvent s = .encReturn ∧ s.dsp.call = .tick ∧ t.enc.es = encTick Config.encLen s.enc.es) ∨
    (nextEvent s = .encReturn ∧ s.dsp.call = .load ∧ s.enc.es = .idle ∧ t.enc.es = .transmitting s.enc.arg 0)

/-! ### DSP -/

/-- R198: when `ENTER(s)` is enabled, and that it pushes (`s`, 1) and changes nothing else. The model's choices: that an
attempted `ENTER` which is not enabled is not taken and leaves the state but for the consumed event (DESIGN CHOICE, log 2), and
that consuming clears the outputs of the step before (`consume`: DESIGN CHOICE, log 1). -/
def Obligations.EnterStep : Prop :=
  ∀ (s : State) (src : Source), nextEvent s = .dsp .enter src →
    ((pending src s = true ∧ (∀ e ∈ s.dsp.stk, e.src ≠ src) ∧ currentPriority Config.prio s.dsp < Config.prio src ∧
      ¬(pending (other src) s = true ∧ (∀ e ∈ s.dsp.stk, e.src ≠ other src) ∧
        Config.prio src < Config.prio (other src))) →
      step s = .next { consume s with dsp := { s.dsp with stk := ⟨src, .entered⟩ :: s.dsp.stk } }) ∧
    (¬(pending src s = true ∧ (∀ e ∈ s.dsp.stk, e.src ≠ src) ∧ currentPriority Config.prio s.dsp < Config.prio src ∧
      ¬(pending (other src) s = true ∧ (∀ e ∈ s.dsp.stk, e.src ≠ other src) ∧
        Config.prio src < Config.prio (other src))) →
      step s = .next (consume s))

/-- R199, with 43_sample_scheduler.md R157 and 44_command_trigger.md R182: `LOCK` takes the lock, starts the encoder call, on
`enc_tick` or `enc_load` in this step, and never waits; before it the lock is free. The model's choices: that an attempted `LOCK`
which is not enabled does nothing (DESIGN CHOICE, log 2), that consuming clears the outputs of the step before and that the start
of the call is an output of this one step (`consume`, `started`: DESIGN CHOICE, log 1), and that the encoder's pending return is
cleared and the driven command latched (`enc.ret`, `enc.arg`: DESIGN CHOICE, log 6). -/
def Obligations.LockStep : Prop :=
  ∀ (s : State) (src : Source), nextEvent s = .dsp .lock src →
    (∀ rest, s.dsp.stk = ⟨src, .entered⟩ :: rest → ∃ t, step s = .next t ∧
      t.dsp = ⟨⟨src, .locked⟩ :: rest, true, if src = .ss then .tick else .load⟩ ∧
      encTickPort t = decide (src = .ss) ∧ encLoadPort t = (if src = .ct then some s.ct.cmdval else none) ∧
      t = { consume s with dsp := t.dsp, enc := { s.enc with arg := t.enc.arg, ret := none }, started := t.started } ∧
      (Consistent s → s.dsp.lock = false)) ∧
    ((∀ rest, s.dsp.stk ≠ ⟨src, .entered⟩ :: rest) → step s = .next (consume s))

/-- 60_exceptions.md R200 (but for its last sentence, on the finiteness of calls), with 44_command_trigger.md R183: `RETURN`
releases the lock and ends the call once the encoder has returned; an `EncoderBusy` of `load` sets `BUSYERR` and advances the
saturating `BUSYCNT`, anything else changes neither. The model's choices: that an attempted `RETURN` which is not enabled does
nothing (DESIGN CHOICE, log 2), that consuming clears the outputs of the step before (DESIGN CHOICE, log 1), and that the
encoder's return waits in `enc.ret` until this step takes it (DESIGN CHOICE, log 6). -/
def Obligations.ReturnStep : Prop :=
  ∀ (s : State) (src : Source), nextEvent s = .dsp .ret src →
    (∀ rest r, s.dsp.stk = ⟨src, .locked⟩ :: rest → s.enc.ret = some r → ∃ t, step s = .next t ∧
      t.dsp = ⟨⟨src, .returned⟩ :: rest, false, .none⟩ ∧
      (src = .ct → r = .encoderBusy → t.ct = { s.ct with
        busyerr := true, busycnt := if s.ct.busycnt = 0xFFFFFFFF then 0xFFFFFFFF else s.ct.busycnt + 1 }) ∧
      (¬(src = .ct ∧ r = .encoderBusy) → t.ct = s.ct) ∧
      t = { consume s with dsp := t.dsp, ct := t.ct, enc := { s.enc with ret := none } }) ∧
    ((∀ rest, s.dsp.stk ≠ ⟨src, .locked⟩ :: rest) ∨ s.enc.ret = none → step s = .next (consume s))

/-- 60_exceptions.md R201, R202: `ACK` clears the pending flag of its own source; `EXIT` pops the entry; neither changes anything
else. The model's choices: that either, attempted in another phase, does nothing (DESIGN CHOICE, log 2), and that consuming
clears the outputs of the step before (DESIGN CHOICE, log 1). -/
def Obligations.AckAndExitSteps : Prop :=
  (∀ (s : State) (src : Source), nextEvent s = .dsp .ack src →
    (∀ rest, s.dsp.stk = ⟨src, .returned⟩ :: rest →
      step s = .next (match src with
        | .ss => { consume s with
            ss := { s.ss with sspend := false }, dsp := { s.dsp with stk := ⟨.ss, .acked⟩ :: rest } }
        | .ct => { consume s with
            ct := { s.ct with ctpend := false }, dsp := { s.dsp with stk := ⟨.ct, .acked⟩ :: rest } })) ∧
    ((∀ rest, s.dsp.stk ≠ ⟨src, .returned⟩ :: rest) → step s = .next (consume s))) ∧
  (∀ (s : State) (src : Source), nextEvent s = .dsp .exit src →
    (∀ rest, s.dsp.stk = ⟨src, .acked⟩ :: rest →
      step s = .next { consume s with dsp := { s.dsp with stk := rest } }) ∧
    ((∀ rest, s.dsp.stk ≠ ⟨src, .acked⟩ :: rest) → step s = .next (consume s)))

/-- R203: the current priority; during a critical section no `ENTER` is enabled, for every choice of the priorities. -/
def Obligations.CriticalSectionAdmitsNoInterrupt : Prop :=
  (∀ (prio : Source → Nat) (d : Dispatcher), (d.stk = [] → currentPriority prio d = 0) ∧
    (d.stk ≠ [] → d.lock = true → currentPriority prio d = max (prio .ss) (prio .ct)) ∧
    (∀ e rest, d.stk = e :: rest → d.lock = false → currentPriority prio d = prio e.src)) ∧
  (∀ (prio : Source → Nat) (s : State) (src : Source), s.dsp.stk ≠ [] → s.dsp.lock = true →
    enterEnabled prio src s = false) ∧
  (∀ src, 1 ≤ Config.prio src)

/-- R204, 60_exceptions.md R205: two simultaneous requests, and preemption, for every choice of positive priorities. -/
def Obligations.RequestsAndPreemption : Prop :=
  ∀ (prio : Source → Nat) (s : State) (a : Source), (∀ src, 1 ≤ prio src) →
    (s.dsp.stk = [] → pending .ss s = true → pending .ct s = true →
      (enterEnabled prio a s = true ↔ prio (other a) ≤ prio a)) ∧
    (∀ ph, s.dsp.stk = [⟨a, ph⟩] → s.dsp.lock = false → pending (other a) s = true →
      (enterEnabled prio (other a) s = true ↔ prio a < prio (other a))) ∧
    (∀ e ∈ s.dsp.stk, e.src = a → enterEnabled prio a s = false)

/-- 60_exceptions.md R206 item 4, R157, R158, R182: a sequence that is entered and stepped to its end performs one `LOCK`, one
`RETURN`, one `ACK` and one `EXIT`, clears the flag of its own source on every path, and gives the dispatcher back as it was.
That the encoder's return is a step of its own among them is the model's choice (DESIGN CHOICE, log 9). -/
def Obligations.HandlerSequenceRunsToItsEnd : Prop :=
  ∀ (s : State) (src : Source), Consistent s → enterEnabled Config.prio src s = true →
    ∃ v, Sys2Proof.core.run 6 (withAgenda s [.dsp .enter src, .dsp .lock src, .encReturn, .dsp .ret src, .dsp .ack src,
      .dsp .exit src]) = .next v ∧
    v.dsp = s.dsp ∧ pending src v = false ∧ pending (other src) v = pending (other src) s ∧
    v.div = s.div ∧ v.car = s.car ∧ v.drv = s.drv ∧
    (src = .ss → v.ct = s.ct ∧ v.enc.es = encTick Config.encLen s.enc.es) ∧
    (src = .ct → s.enc.es = .idle → v.ct.busycnt = s.ct.busycnt ∧ v.ct.busyerr = s.ct.busyerr ∧
      v.enc.es = .transmitting s.ct.cmdval 0) ∧
    (src = .ct → s.enc.es ≠ .idle → v.ct.busycnt = saturatingSucc s.ct.busycnt ∧ v.ct.busyerr = true ∧
      v.enc.es = s.enc.es)

/-! ### Rules of the whole machine -/

/-- 10_state.md R27, 60_exceptions.md R196, R207: each status flag is set and cleared only by the step named. -/
def Obligations.FlagsChangeByTheNamedStepsOnly : Prop :=
  ∀ s t : State, step s = .next t →
    (s.drv.ready = false → t.drv.ready = true → Issues .INIT (nextEvent s)) ∧
    (s.drv.ready = true → t.drv.ready = false → nextEvent s = .reset) ∧
    (s.drv.cfgerr = false → t.drv.cfgerr = true → Issues .INIT (nextEvent s)) ∧
    (s.drv.cfgerr = true → t.drv.cfgerr = false → nextEvent s = .reset) ∧
    (s.car.clken = false → t.car.clken = true → Issues .INIT (nextEvent s)) ∧
    (s.car.clken = true → t.car.clken = false → nextEvent s = .reset) ∧
    (s.car.cen = false → t.car.cen = true → Issues .INIT (nextEvent s)) ∧
    (s.car.cen = true → t.car.cen = false → Issues .INIT (nextEvent s) ∨ nextEvent s = .reset) ∧
    (s.car.ocen = false → t.car.ocen = true → Issues .ENABLE (nextEvent s)) ∧
    (s.car.ocen = true → t.car.ocen = false →
      Issues .DISABLE (nextEvent s) ∨ Issues .INIT (nextEvent s) ∨ nextEvent s = .reset) ∧
    (s.drv.pinrt = false → t.drv.pinrt = true → Issues .INIT (nextEvent s)) ∧
    (s.drv.pinrt = true → t.drv.pinrt = false → nextEvent s = .reset) ∧
    (s.drv.moden = false → t.drv.moden = true → Issues .INIT (nextEvent s)) ∧
    (s.drv.moden = true → t.drv.moden = false → nextEvent s = .reset) ∧
    (s.car.out = false → t.car.out = true → ∃ b, nextEvent s = .clk b) ∧
    (s.car.out = true → t.car.out = false →
      (∃ b, nextEvent s = .clk b) ∨ Issues .INIT (nextEvent s) ∨ nextEvent s = .reset) ∧
    (s.ss.ssen = false → t.ss.ssen = true → Issues .SSSTART (nextEvent s)) ∧
    (s.ss.ssen = true → t.ss.ssen = false → nextEvent s = .reset) ∧
    (s.ct.cten = false → t.ct.cten = true → Issues .CTARM (nextEvent s)) ∧
    (s.ct.cten = true → t.ct.cten = false → nextEvent s = .reset) ∧
    (∀ src, pending src s = false → pending src t = true → ∃ b, nextEvent s = .clk b) ∧
    (∀ src, pending src s = true → pending src t = false → nextEvent s = .dsp .ack src ∨ nextEvent s = .reset) ∧
    (s.ct.busyerr = false → t.ct.busyerr = true → nextEvent s = .dsp .ret .ct) ∧
    (s.ct.busyerr = true → t.ct.busyerr = false → nextEvent s = .reset) ∧
    (s.dsp.lock = false → t.dsp.lock = true → ∃ src, nextEvent s = .dsp .lock src) ∧
    (s.dsp.lock = true → t.dsp.lock = false → (∃ src, nextEvent s = .dsp .ret src) ∨ nextEvent s = .reset)

/-- 10_state.md R43 item 6, R34: a successful `INIT` leaves half of the reload count as the duty, and only `SETDUTY`, `INIT`
and the hardware reset ever change it. -/
def Obligations.DutyChangesBySetdutyOnly : Prop :=
  (∀ s u : State, exec (.init .host) s = .next u → u.rsp = some ⟨.ok, 0⟩ → u.car.duty = u.car.arr >>> 1) ∧
  (∀ s t : State, step s = .next t → t.car.duty ≠ s.car.duty →
    Issues .SETDUTY (nextEvent s) ∨ Issues .INIT (nextEvent s) ∨ nextEvent s = .reset)

/-- 20_memory.md R73: an instruction of the encoder changes the duty and the channel at most; outside the PWM surface it is
answered `E_ACC`; on the surface the requester makes no difference. 60_exceptions.md R205: every transaction of the encoder
that is performed is answered, and an error is only ever `E_ACC` or `E_RO` and changes nothing (how the transaction stands in
the state and what `consume` clears are the model's: logs 2, 1; which words the encoder issues is DEDUCED: log 10). -/
def Obligations.EncoderReachesTheSurfaceOnly : Prop :=
  (∀ (i : Instr) (s t : State), requesterOf i = .encoder → exec i s = .next t →
    t = { s with car := { s.car with duty := t.car.duty, ocen := t.car.ocen }, rsp := t.rsp }) ∧
  (∀ (i : Instr) (s : State), requesterOf i = .encoder →
    mnemonicOf i ∉ [Mnemonic.ENABLE, .DISABLE, .GETOCEN, .GETDUTY, .SETDUTY, .GETMAXDUTY] →
      exec i s = .next { s with rsp := some ⟨.eAcc, 0⟩ }) ∧
  (∀ (s : State) (v : Word), exec (.enable .encoder) s = exec (.enable .host) s ∧
    exec (.disable .encoder) s = exec (.disable .host) s ∧ exec (.getocen .encoder) s = exec (.getocen .host) s ∧
    exec (.getduty .encoder) s = exec (.getduty .host) s ∧ exec (.setduty .encoder v) s = exec (.setduty .host v) s ∧
    exec (.getmaxduty .encoder) s = exec (.getmaxduty .host) s) ∧
  (∀ (s : State) (w : TxnWord), Consistent s → ActiveOnlyWhenReady s → nextEvent s = .txn w → rqOf w = .encoder →
    txnEnabled w (consume s) = true → ∃ t p, step s = .next t ∧ t.rsp = some p ∧
      (p.code = .ok ∨ (p.code ∈ [RespCode.eAcc, .eRo] ∧ t = { consume s with rsp := some p })))

/-! ### Reset -/

/-- R50, R220: the hardware reset may come at any point; it gives every element of the block and the encoder its
reset value, whatever was in progress. -/
def Obligations.HardwareReset : Prop :=
  (∀ s : State, nextEvent s = .reset → ∃ t, step s = .next t ∧
    t.div = ⟨0, 0⟩ ∧ t.car = ⟨0, 0, 0, false, 0, 0, false, false, false⟩ ∧ t.drv = ⟨false, false, false, false, 0⟩ ∧
    t.ss = ⟨0, 0, 0, 0, 0, false, false⟩ ∧ t.ct = ⟨0, false, false, false, false, 0⟩ ∧ t.dsp = ⟨[], false, .none⟩ ∧
    t.enc.es = .idle ∧
    irOut t = false ∧ modEn t = false ∧ ssIrq t = false ∧ ctIrq t = false) ∧
  (State.reset.div = ⟨0, 0⟩ ∧ State.reset.car = ⟨0, 0, 0, false, 0, 0, false, false, false⟩ ∧
    State.reset.drv = ⟨false, false, false, false, 0⟩ ∧ State.reset.ss = ⟨0, 0, 0, 0, 0, false, false⟩ ∧
    State.reset.ct = ⟨0, false, false, false, false, 0⟩ ∧ State.reset.dsp = ⟨[], false, .none⟩ ∧
    State.reset.enc.es = .idle)

/-- R221: what each instruction answers straight after `RESET`; clock edges change `BTNQ` only; no `ENTER` is enabled. -/
def Obligations.AnswersAfterReset : Prop :=
  (∀ i ∈ [Instr.getfin .host, .getftgt .host, .getfsmp .host, .getcmd .host, .getdivpsc .host, .getdivarr .host,
      .getstatus .host, .getpsc .host, .getsspsc .host, .getssarr .host, .getbusycnt .host, .getctrl .host],
    exec i State.reset = .next { State.reset with rsp := some ⟨.ok, 0⟩ }) ∧
  exec (.getdivst .host) State.reset = .next { State.reset with rsp := some ⟨.ok, 3⟩ } ∧
  (∀ i ∈ [Instr.getmaxduty .host, .getduty .host, .getocen .host, .enable .host, .disable .host, .ssstart .host,
      .ctarm .host], exec i State.reset = .next { State.reset with rsp := some ⟨.eNotrdy, 0⟩ }) ∧
  (∀ v : Word, exec (.setduty .host v) State.reset = .next { State.reset with rsp := some ⟨.eNotrdy, 0⟩ }) ∧
  (∃ u, exec (.init .host) State.reset = .next u ∧ u.rsp = some ⟨.cfgTz, 0⟩ ∧ u.drv.cfgerr = true ∧
    exec (.init .host) u = .next { u with rsp := some ⟨.eState, 0⟩ }) ∧
  (∀ (btn : Nat → Bool) (n : Nat),
    clkSteps btn (n + 1) State.reset = { State.reset with ct := { State.reset.ct with btnq := btn n } }) ∧
  (∀ (prio : Source → Nat) (src : Source) (btn : Nat → Bool) (n : Nat),
    enterEnabled prio src (clkSteps btn n State.reset) = false)

/-! ### Invariants -/

/-- 10_state.md R43, 60_exceptions.md R205: the invariants hold straight after reset. -/
def Obligations.InvariantsHoldAtReset : Prop :=
  Consistent State.reset ∧ Nested State.reset ∧ ActiveOnlyWhenReady State.reset ∧ Pristine State.reset

/-- 10_state.md R43, R39: every step of every agent, from every state that meets the invariant, keeps it. -/
def Obligations.StepKeepsConsistent : Prop := ∀ s t : State, Consistent s → step s = .next t → Consistent t

/-- R46, 60_exceptions.md R205, R206 item 1: how handler sequences nest is kept by every step, and so is that one is active
only when `READY = 1`. -/
def Obligations.StepKeepsNested : Prop :=
  (∀ s t : State, Consistent s → Nested s → step s = .next t → Nested t) ∧
  (∀ s t : State, Consistent s → ActiveOnlyWhenReady s → step s = .next t → ActiveOnlyWhenReady t)

/-! ### Weakly fair runs -/

/-- R10, R174 with 60_exceptions.md R200 and 20_memory.md R70: on a run that is fair to the encoder's return and to the
dispatcher, whatever else happens and in whatever order, a lock that is held is released. -/
def Obligations.HeldLockIsReleased : Prop :=
  ∀ (env : Nat → Event) (r : Nat → State), Run env r → Consistent (r 0) → EncoderFair env r → DispatcherFair env r →
    ∀ n, (r n).dsp.lock = true → ∃ m, n ≤ m ∧ (r m).dsp.lock = false

/-- R10 with 60_exceptions.md R206 items 3 and 4: on such a run the handler sequence of a source than which the other is not
more urgent, once it is the top of the stack, is left. -/
def Obligations.UrgentSequenceIsLeft : Prop :=
  ∀ (env : Nat → Event) (r : Nat → State), Run env r → Consistent (r 0) → Nested (r 0) → EncoderFair env r →
    DispatcherFair env r → ∀ (n : Nat) (src : Source) (ph : Phase) (rest : List Entry),
      Config.prio (other src) ≤ Config.prio src → (r n).dsp.stk = ⟨src, ph⟩ :: rest →
        ∃ m, n ≤ m ∧ ∀ e ∈ (r m).dsp.stk, e.src ≠ src
end

