-- ==== Sys2Proof/Laws/Decode.lean ====
section
/-! SUPPORT. The spec lemmas of the decoder: the fields of a built word, a word rebuilt from its fields, and the address map. -/

namespace Sys2Proof

/-- The bits of a built word, field by field (R80). -/
theorem getLsbD_txnWord (rq : Requester) (we : BitVec 1) (a : Addr) (w : Word) (i : Nat) :
    (txnWord rq we a w).getLsbD i =
      if i < 32 then w.getLsbD i
      else if i < 40 then a.getLsbD (i - 32)
      else if i < 41 then we.getLsbD (i - 40)
      else (rqBit rq).getLsbD (i - 41) := by
  show BitVec.getLsbD (w := 1 + 1 + 8 + 32) (rqBit rq ++ we ++ a ++ w) i = _
  simp only [BitVec.getLsbD_append]
  split
  · rfl
  · rename_i h
    have h8 : i - 32 < 8 ↔ i < 40 := by omega
    have h1 : i - 40 < 1 ↔ i < 41 := by omega
    have e1 : i - 32 - 8 = i - 40 := by omega
    have e2 : i - 40 - 1 = i - 41 := by omega
    simp only [h8, e1, e2, h1]

@[simp] theorem rqOf_txnWord (rq : Requester) (we : BitVec 1) (a : Addr) (w : Word) : rqOf (txnWord rq we a w) = rq := by
  unfold rqOf
  rw [getLsbD_txnWord]
  cases rq <;> rfl

@[simp] theorem weOf_txnWord (rq : Requester) (we : BitVec 1) (a : Addr) (w : Word) :
    weOf (txnWord rq we a w) = we.getLsbD 0 := by
  unfold weOf
  rw [getLsbD_txnWord]
  rfl

@[simp] theorem addrOf_txnWord (rq : Requester) (we : BitVec 1) (a : Addr) (w : Word) : addrOf (txnWord rq we a w) = a := by
  apply BitVec.eq_of_getLsbD_eq
  intro i hi
  have h1 : ¬ (32 + i < 32) := by omega
  have h2 : 32 + i < 40 := by omega
  have h3 : 32 + i - 32 = i := by omega
  rw [addrOf, BitVec.getLsbD_extractLsb', getLsbD_txnWord, if_neg h1, if_pos h2, h3]
  simp [hi]

@[simp] theorem wdataOf_txnWord (rq : Requester) (we : BitVec 1) (a : Addr) (w : Word) :
    wdataOf (txnWord rq we a w) = w := by
  apply BitVec.eq_of_getLsbD_eq
  intro i hi
  have h1 : 0 + i < 32 := by omega
  rw [wdataOf, BitVec.getLsbD_extractLsb', getLsbD_txnWord, if_pos h1]
  simp [hi]

/-- Decoding a built word is decoding its fields. -/
theorem decode_txnWord (rq : Requester) (we : BitVec 1) (a : Addr) (w : Word) :
    decode (txnWord rq we a w) = decodeFields rq (we.getLsbD 0) a w := by
  simp [decode]

/-- Every word is built from its own fields: none of its 42 bits is dropped (R80). -/
theorem txnWord_of_fields (t : TxnWord) : txnWord (rqOf t) (BitVec.ofBool (weOf t)) (addrOf t) (wdataOf t) = t := by
  apply BitVec.eq_of_getLsbD_eq
  intro i hi
  have hrq : (rqBit (rqOf t)).getLsbD 0 = t.getLsbD 41 := by
    unfold rqOf
    cases t.getLsbD 41 <;> rfl
  rw [getLsbD_txnWord]
  rcases (by omega : i < 32 ∨ (32 ≤ i ∧ i < 40) ∨ i = 40 ∨ i = 41) with h | ⟨h, h'⟩ | h | h
  · rw [if_pos h, wdataOf, BitVec.getLsbD_extractLsb']
    simp [h]
  · have h3 : 32 + (i - 32) = i := by omega
    rw [if_neg (by omega), if_pos h', addrOf, BitVec.getLsbD_extractLsb', h3]
    simp
    omega
  · subst h
    cases hw : weOf t <;> (unfold weOf at hw; rw [hw]; rfl)
  · subst h
    exact hrq

/-- Two words with the same fields are the same word. -/
theorem eq_of_fields {t u : TxnWord} (hr : rqOf t = rqOf u) (hw : weOf t = weOf u) (ha : addrOf t = addrOf u)
    (hd : wdataOf t = wdataOf u) : t = u := by
  rw [← txnWord_of_fields t, ← txnWord_of_fields u, hr, hw, ha, hd]

@[simp] theorem regAt_regAddr (r : Reg) : regAt (regAddr r) = some r := by
  cases r <;> rfl

/-- A mapped address is the address of its register. -/
theorem regAddr_of_regAt : ∀ (a : Addr) (r : Reg), regAt a = some r → regAddr r = a := by
  decide

/-- No register stands at a misaligned or unmapped address, and one stands at every other (R62, R65). -/
theorem regAt_eq_none_iff : ∀ a : Addr, regAt a = none ↔ (a.toNat % 4 ≠ 0 ∨ 0x40 ≤ a.toNat) := by
  decide

/-- A word that is an instruction addresses a register. -/
theorem regAt_of_decode {t : TxnWord} {i : Instr} (h : decode t = .ok i) : ∃ r, regAt (addrOf t) = some r := by
  unfold decode decodeFields at h
  split at h
  · cases h
  · exact ⟨_, ‹_›⟩

/-- What a write to `CTRL` decodes to (R85 step 6). -/
theorem ctrlInstr_cases (rq : Requester) (w : Word) :
    (w = 1 ∧ ctrlInstr rq w = .ok (.init rq)) ∨ (w = 2 ∧ ctrlInstr rq w = .ok (.ssstart rq)) ∨
    (w = 3 ∧ ctrlInstr rq w = .ok (.ctarm rq)) ∨ (w ≠ 1 ∧ w ≠ 2 ∧ w ≠ 3 ∧ ctrlInstr rq w = .error .cmd) := by
  unfold ctrlInstr
  split
  · exact .inl ⟨‹_›, rfl⟩
  · split
    · exact .inr (.inl ⟨‹_›, rfl⟩)
    · split
      · exact .inr (.inr (.inl ⟨‹_›, rfl⟩))
      · exact .inr (.inr (.inr ⟨‹_›, ‹_›, ‹_›, rfl⟩))

/-- A decoded instruction carries the requester of its word (R80). -/
theorem requesterOf_decode {t : TxnWord} {i : Instr} (h : decode t = .ok i) : requesterOf i = rqOf t := by
  unfold decode decodeFields at h
  split at h
  · cases h
  · rename_i r _
    split at h
    · cases r <;> simp only [writeInstr] at h
      case ctrl =>
        rcases ctrlInstr_cases (rqOf t) (wdataOf t) with ⟨-, e⟩ | ⟨-, e⟩ | ⟨-, e⟩ | ⟨-, -, -, e⟩ <;> rw [e] at h <;> cases h <;> rfl
      case ocen => split at h <;> cases h <;> rfl
      all_goals cases h <;> rfl
    · cases h
      cases r <;> rfl

end Sys2Proof
end

