-- ==== Sys2Proof/Laws/State.lean ====
section
/-! SUPPORT. One lemma per field of `State` and update, each true by definition, so that no proof unfolds a record update:
the seven unit updates, the ports, a response, a clock edge and a reset. -/

namespace Sys2Proof.Machine

@[simp] theorem State.withDiv_div (s : State) (u : DivUnit) : (s.withDiv u).div = u := rfl
@[simp] theorem State.withDiv_car (s : State) (u : DivUnit) : (s.withDiv u).car = s.car := rfl
@[simp] theorem State.withDiv_drv (s : State) (u : DivUnit) : (s.withDiv u).drv = s.drv := rfl
@[simp] theorem State.withDiv_ss (s : State) (u : DivUnit) : (s.withDiv u).ss = s.ss := rfl
@[simp] theorem State.withDiv_ct (s : State) (u : DivUnit) : (s.withDiv u).ct = s.ct := rfl
@[simp] theorem State.withDiv_dsp (s : State) (u : DivUnit) : (s.withDiv u).dsp = s.dsp := rfl
@[simp] theorem State.withDiv_enc (s : State) (u : DivUnit) : (s.withDiv u).enc = s.enc := rfl
@[simp] theorem State.withDiv_rsp (s : State) (u : DivUnit) : (s.withDiv u).rsp = s.rsp := rfl
@[simp] theorem State.withDiv_started (s : State) (u : DivUnit) : (s.withDiv u).started = s.started := rfl
@[simp] theorem State.withDiv_agenda (s : State) (u : DivUnit) : (s.withDiv u).agenda = s.agenda := rfl
@[simp] theorem State.withDiv_envTime (s : State) (u : DivUnit) : (s.withDiv u).envTime = s.envTime := rfl
@[simp] theorem State.withDiv_self (s : State) : s.withDiv s.div = s := rfl
@[simp] theorem State.withDiv_withDiv (s : State) (u v : DivUnit) : (s.withDiv u).withDiv v = s.withDiv v := rfl

@[simp] theorem State.withCar_div (s : State) (u : CarUnit) : (s.withCar u).div = s.div := rfl
@[simp] theorem State.withCar_car (s : State) (u : CarUnit) : (s.withCar u).car = u := rfl
@[simp] theorem State.withCar_drv (s : State) (u : CarUnit) : (s.withCar u).drv = s.drv := rfl
@[simp] theorem State.withCar_ss (s : State) (u : CarUnit) : (s.withCar u).ss = s.ss := rfl
@[simp] theorem State.withCar_ct (s : State) (u : CarUnit) : (s.withCar u).ct = s.ct := rfl
@[simp] theorem State.withCar_dsp (s : State) (u : CarUnit) : (s.withCar u).dsp = s.dsp := rfl
@[simp] theorem State.withCar_enc (s : State) (u : CarUnit) : (s.withCar u).enc = s.enc := rfl
@[simp] theorem State.withCar_rsp (s : State) (u : CarUnit) : (s.withCar u).rsp = s.rsp := rfl
@[simp] theorem State.withCar_started (s : State) (u : CarUnit) : (s.withCar u).started = s.started := rfl
@[simp] theorem State.withCar_agenda (s : State) (u : CarUnit) : (s.withCar u).agenda = s.agenda := rfl
@[simp] theorem State.withCar_envTime (s : State) (u : CarUnit) : (s.withCar u).envTime = s.envTime := rfl
@[simp] theorem State.withCar_self (s : State) : s.withCar s.car = s := rfl
@[simp] theorem State.withCar_withCar (s : State) (u v : CarUnit) : (s.withCar u).withCar v = s.withCar v := rfl

@[simp] theorem State.withDrv_div (s : State) (u : DrvUnit) : (s.withDrv u).div = s.div := rfl
@[simp] theorem State.withDrv_car (s : State) (u : DrvUnit) : (s.withDrv u).car = s.car := rfl
@[simp] theorem State.withDrv_drv (s : State) (u : DrvUnit) : (s.withDrv u).drv = u := rfl
@[simp] theorem State.withDrv_ss (s : State) (u : DrvUnit) : (s.withDrv u).ss = s.ss := rfl
@[simp] theorem State.withDrv_ct (s : State) (u : DrvUnit) : (s.withDrv u).ct = s.ct := rfl
@[simp] theorem State.withDrv_dsp (s : State) (u : DrvUnit) : (s.withDrv u).dsp = s.dsp := rfl
@[simp] theorem State.withDrv_enc (s : State) (u : DrvUnit) : (s.withDrv u).enc = s.enc := rfl
@[simp] theorem State.withDrv_rsp (s : State) (u : DrvUnit) : (s.withDrv u).rsp = s.rsp := rfl
@[simp] theorem State.withDrv_started (s : State) (u : DrvUnit) : (s.withDrv u).started = s.started := rfl
@[simp] theorem State.withDrv_agenda (s : State) (u : DrvUnit) : (s.withDrv u).agenda = s.agenda := rfl
@[simp] theorem State.withDrv_envTime (s : State) (u : DrvUnit) : (s.withDrv u).envTime = s.envTime := rfl
@[simp] theorem State.withDrv_self (s : State) : s.withDrv s.drv = s := rfl
@[simp] theorem State.withDrv_withDrv (s : State) (u v : DrvUnit) : (s.withDrv u).withDrv v = s.withDrv v := rfl

@[simp] theorem State.withSs_div (s : State) (u : SsUnit) : (s.withSs u).div = s.div := rfl
@[simp] theorem State.withSs_car (s : State) (u : SsUnit) : (s.withSs u).car = s.car := rfl
@[simp] theorem State.withSs_drv (s : State) (u : SsUnit) : (s.withSs u).drv = s.drv := rfl
@[simp] theorem State.withSs_ss (s : State) (u : SsUnit) : (s.withSs u).ss = u := rfl
@[simp] theorem State.withSs_ct (s : State) (u : SsUnit) : (s.withSs u).ct = s.ct := rfl
@[simp] theorem State.withSs_dsp (s : State) (u : SsUnit) : (s.withSs u).dsp = s.dsp := rfl
@[simp] theorem State.withSs_enc (s : State) (u : SsUnit) : (s.withSs u).enc = s.enc := rfl
@[simp] theorem State.withSs_rsp (s : State) (u : SsUnit) : (s.withSs u).rsp = s.rsp := rfl
@[simp] theorem State.withSs_started (s : State) (u : SsUnit) : (s.withSs u).started = s.started := rfl
@[simp] theorem State.withSs_agenda (s : State) (u : SsUnit) : (s.withSs u).agenda = s.agenda := rfl
@[simp] theorem State.withSs_envTime (s : State) (u : SsUnit) : (s.withSs u).envTime = s.envTime := rfl
@[simp] theorem State.withSs_self (s : State) : s.withSs s.ss = s := rfl
@[simp] theorem State.withSs_withSs (s : State) (u v : SsUnit) : (s.withSs u).withSs v = s.withSs v := rfl

@[simp] theorem State.withCt_div (s : State) (u : CtUnit) : (s.withCt u).div = s.div := rfl
@[simp] theorem State.withCt_car (s : State) (u : CtUnit) : (s.withCt u).car = s.car := rfl
@[simp] theorem State.withCt_drv (s : State) (u : CtUnit) : (s.withCt u).drv = s.drv := rfl
@[simp] theorem State.withCt_ss (s : State) (u : CtUnit) : (s.withCt u).ss = s.ss := rfl
@[simp] theorem State.withCt_ct (s : State) (u : CtUnit) : (s.withCt u).ct = u := rfl
@[simp] theorem State.withCt_dsp (s : State) (u : CtUnit) : (s.withCt u).dsp = s.dsp := rfl
@[simp] theorem State.withCt_enc (s : State) (u : CtUnit) : (s.withCt u).enc = s.enc := rfl
@[simp] theorem State.withCt_rsp (s : State) (u : CtUnit) : (s.withCt u).rsp = s.rsp := rfl
@[simp] theorem State.withCt_started (s : State) (u : CtUnit) : (s.withCt u).started = s.started := rfl
@[simp] theorem State.withCt_agenda (s : State) (u : CtUnit) : (s.withCt u).agenda = s.agenda := rfl
@[simp] theorem State.withCt_envTime (s : State) (u : CtUnit) : (s.withCt u).envTime = s.envTime := rfl
@[simp] theorem State.withCt_self (s : State) : s.withCt s.ct = s := rfl
@[simp] theorem State.withCt_withCt (s : State) (u v : CtUnit) : (s.withCt u).withCt v = s.withCt v := rfl

@[simp] theorem State.withDsp_div (s : State) (u : Dispatcher) : (s.withDsp u).div = s.div := rfl
@[simp] theorem State.withDsp_car (s : State) (u : Dispatcher) : (s.withDsp u).car = s.car := rfl
@[simp] theorem State.withDsp_drv (s : State) (u : Dispatcher) : (s.withDsp u).drv = s.drv := rfl
@[simp] theorem State.withDsp_ss (s : State) (u : Dispatcher) : (s.withDsp u).ss = s.ss := rfl
@[simp] theorem State.withDsp_ct (s : State) (u : Dispatcher) : (s.withDsp u).ct = s.ct := rfl
@[simp] theorem State.withDsp_dsp (s : State) (u : Dispatcher) : (s.withDsp u).dsp = u := rfl
@[simp] theorem State.withDsp_enc (s : State) (u : Dispatcher) : (s.withDsp u).enc = s.enc := rfl
@[simp] theorem State.withDsp_rsp (s : State) (u : Dispatcher) : (s.withDsp u).rsp = s.rsp := rfl
@[simp] theorem State.withDsp_started (s : State) (u : Dispatcher) : (s.withDsp u).started = s.started := rfl
@[simp] theorem State.withDsp_agenda (s : State) (u : Dispatcher) : (s.withDsp u).agenda = s.agenda := rfl
@[simp] theorem State.withDsp_envTime (s : State) (u : Dispatcher) : (s.withDsp u).envTime = s.envTime := rfl
@[simp] theorem State.withDsp_self (s : State) : s.withDsp s.dsp = s := rfl
@[simp] theorem State.withDsp_withDsp (s : State) (u v : Dispatcher) : (s.withDsp u).withDsp v = s.withDsp v := rfl

@[simp] theorem State.withEnc_div (s : State) (u : Encoder) : (s.withEnc u).div = s.div := rfl
@[simp] theorem State.withEnc_car (s : State) (u : Encoder) : (s.withEnc u).car = s.car := rfl
@[simp] theorem State.withEnc_drv (s : State) (u : Encoder) : (s.withEnc u).drv = s.drv := rfl
@[simp] theorem State.withEnc_ss (s : State) (u : Encoder) : (s.withEnc u).ss = s.ss := rfl
@[simp] theorem State.withEnc_ct (s : State) (u : Encoder) : (s.withEnc u).ct = s.ct := rfl
@[simp] theorem State.withEnc_dsp (s : State) (u : Encoder) : (s.withEnc u).dsp = s.dsp := rfl
@[simp] theorem State.withEnc_enc (s : State) (u : Encoder) : (s.withEnc u).enc = u := rfl
@[simp] theorem State.withEnc_rsp (s : State) (u : Encoder) : (s.withEnc u).rsp = s.rsp := rfl
@[simp] theorem State.withEnc_started (s : State) (u : Encoder) : (s.withEnc u).started = s.started := rfl
@[simp] theorem State.withEnc_agenda (s : State) (u : Encoder) : (s.withEnc u).agenda = s.agenda := rfl
@[simp] theorem State.withEnc_envTime (s : State) (u : Encoder) : (s.withEnc u).envTime = s.envTime := rfl
@[simp] theorem State.withEnc_self (s : State) : s.withEnc s.enc = s := rfl
@[simp] theorem State.withEnc_withEnc (s : State) (u v : Encoder) : (s.withEnc u).withEnc v = s.withEnc v := rfl

@[simp] theorem State.withPorts_div (s : State) (r : Option Response) (a : List Event) (n : Nat) : (s.withPorts r a n).div = s.div := rfl
@[simp] theorem State.withPorts_car (s : State) (r : Option Response) (a : List Event) (n : Nat) : (s.withPorts r a n).car = s.car := rfl
@[simp] theorem State.withPorts_drv (s : State) (r : Option Response) (a : List Event) (n : Nat) : (s.withPorts r a n).drv = s.drv := rfl
@[simp] theorem State.withPorts_ss (s : State) (r : Option Response) (a : List Event) (n : Nat) : (s.withPorts r a n).ss = s.ss := rfl
@[simp] theorem State.withPorts_ct (s : State) (r : Option Response) (a : List Event) (n : Nat) : (s.withPorts r a n).ct = s.ct := rfl
@[simp] theorem State.withPorts_dsp (s : State) (r : Option Response) (a : List Event) (n : Nat) : (s.withPorts r a n).dsp = s.dsp := rfl
@[simp] theorem State.withPorts_enc (s : State) (r : Option Response) (a : List Event) (n : Nat) : (s.withPorts r a n).enc = s.enc := rfl
@[simp] theorem State.withPorts_rsp (s : State) (r : Option Response) (a : List Event) (n : Nat) : (s.withPorts r a n).rsp = r := rfl
@[simp] theorem State.withPorts_started (s : State) (r : Option Response) (a : List Event) (n : Nat) : (s.withPorts r a n).started = s.started := rfl
@[simp] theorem State.withPorts_agenda (s : State) (r : Option Response) (a : List Event) (n : Nat) : (s.withPorts r a n).agenda = a := rfl
@[simp] theorem State.withPorts_envTime (s : State) (r : Option Response) (a : List Event) (n : Nat) : (s.withPorts r a n).envTime = n := rfl

@[simp] theorem respond_div (c : RespCode) (d : Word) (s : State) : (respond c d s).div = s.div := rfl
@[simp] theorem respond_car (c : RespCode) (d : Word) (s : State) : (respond c d s).car = s.car := rfl
@[simp] theorem respond_drv (c : RespCode) (d : Word) (s : State) : (respond c d s).drv = s.drv := rfl
@[simp] theorem respond_ss (c : RespCode) (d : Word) (s : State) : (respond c d s).ss = s.ss := rfl
@[simp] theorem respond_ct (c : RespCode) (d : Word) (s : State) : (respond c d s).ct = s.ct := rfl
@[simp] theorem respond_dsp (c : RespCode) (d : Word) (s : State) : (respond c d s).dsp = s.dsp := rfl
@[simp] theorem respond_enc (c : RespCode) (d : Word) (s : State) : (respond c d s).enc = s.enc := rfl
@[simp] theorem respond_rsp (c : RespCode) (d : Word) (s : State) : (respond c d s).rsp = some ⟨c, d⟩ := rfl
@[simp] theorem respond_started (c : RespCode) (d : Word) (s : State) : (respond c d s).started = s.started := rfl
@[simp] theorem respond_agenda (c : RespCode) (d : Word) (s : State) : (respond c d s).agenda = s.agenda := rfl
@[simp] theorem respond_envTime (c : RespCode) (d : Word) (s : State) : (respond c d s).envTime = s.envTime := rfl

@[simp] theorem clkStep_div (b : Bool) (s : State) : (clkStep b s).div = s.div := rfl
@[simp] theorem clkStep_car (b : Bool) (s : State) : (clkStep b s).car = carClk s.drv.pinrt s.car := rfl
@[simp] theorem clkStep_drv (b : Bool) (s : State) : (clkStep b s).drv = s.drv := rfl
@[simp] theorem clkStep_ss (b : Bool) (s : State) : (clkStep b s).ss = ssClk s.ss := rfl
@[simp] theorem clkStep_ct (b : Bool) (s : State) : (clkStep b s).ct = ctClk b s.ct := rfl
@[simp] theorem clkStep_dsp (b : Bool) (s : State) : (clkStep b s).dsp = s.dsp := rfl
@[simp] theorem clkStep_enc (b : Bool) (s : State) : (clkStep b s).enc = s.enc := rfl
@[simp] theorem clkStep_rsp (b : Bool) (s : State) : (clkStep b s).rsp = s.rsp := rfl
@[simp] theorem clkStep_started (b : Bool) (s : State) : (clkStep b s).started = s.started := rfl
@[simp] theorem clkStep_agenda (b : Bool) (s : State) : (clkStep b s).agenda = s.agenda := rfl
@[simp] theorem clkStep_envTime (b : Bool) (s : State) : (clkStep b s).envTime = s.envTime := rfl

@[simp] theorem resetStep_div (s : State) : (resetStep s).div = State.reset.div := rfl
@[simp] theorem resetStep_car (s : State) : (resetStep s).car = State.reset.car := rfl
@[simp] theorem resetStep_drv (s : State) : (resetStep s).drv = State.reset.drv := rfl
@[simp] theorem resetStep_ss (s : State) : (resetStep s).ss = State.reset.ss := rfl
@[simp] theorem resetStep_ct (s : State) : (resetStep s).ct = State.reset.ct := rfl
@[simp] theorem resetStep_dsp (s : State) : (resetStep s).dsp = State.reset.dsp := rfl
@[simp] theorem resetStep_enc (s : State) : (resetStep s).enc = State.reset.enc := rfl
@[simp] theorem resetStep_rsp (s : State) : (resetStep s).rsp = none := rfl
@[simp] theorem resetStep_started (s : State) : (resetStep s).started = .none := rfl
@[simp] theorem resetStep_agenda (s : State) : (resetStep s).agenda = s.agenda := rfl
@[simp] theorem resetStep_envTime (s : State) : (resetStep s).envTime = s.envTime := rfl

@[simp] theorem reportBusy_div (s : State) : (reportBusy s).div = s.div := rfl
@[simp] theorem reportBusy_car (s : State) : (reportBusy s).car = s.car := rfl
@[simp] theorem reportBusy_drv (s : State) : (reportBusy s).drv = s.drv := rfl
@[simp] theorem reportBusy_ss (s : State) : (reportBusy s).ss = s.ss := rfl
@[simp] theorem reportBusy_ct (s : State) : (reportBusy s).ct = { s.ct with busyerr := true, busycnt := saturatingSucc s.ct.busycnt } := rfl
@[simp] theorem reportBusy_dsp (s : State) : (reportBusy s).dsp = s.dsp := rfl
@[simp] theorem reportBusy_enc (s : State) : (reportBusy s).enc = s.enc := rfl
@[simp] theorem reportBusy_rsp (s : State) : (reportBusy s).rsp = s.rsp := rfl
@[simp] theorem reportBusy_started (s : State) : (reportBusy s).started = s.started := rfl
@[simp] theorem reportBusy_agenda (s : State) : (reportBusy s).agenda = s.agenda := rfl
@[simp] theorem reportBusy_envTime (s : State) : (reportBusy s).envTime = s.envTime := rfl

@[simp] theorem unlock_div (s : State) : (unlock s).div = s.div := rfl
@[simp] theorem unlock_car (s : State) : (unlock s).car = s.car := rfl
@[simp] theorem unlock_drv (s : State) : (unlock s).drv = s.drv := rfl
@[simp] theorem unlock_ss (s : State) : (unlock s).ss = s.ss := rfl
@[simp] theorem unlock_ct (s : State) : (unlock s).ct = s.ct := rfl
@[simp] theorem unlock_dsp (s : State) : (unlock s).dsp = ⟨setTopPhase .returned s.dsp.stk, false, .none⟩ := rfl
@[simp] theorem unlock_enc (s : State) : (unlock s).enc = { s.enc with ret := none } := rfl
@[simp] theorem unlock_rsp (s : State) : (unlock s).rsp = s.rsp := rfl
@[simp] theorem unlock_started (s : State) : (unlock s).started = s.started := rfl
@[simp] theorem unlock_agenda (s : State) : (unlock s).agenda = s.agenda := rfl
@[simp] theorem unlock_envTime (s : State) : (unlock s).envTime = s.envTime := rfl

@[simp] theorem lockStep_div (src : Source) (s : State) : (lockStep src s).div = s.div := rfl
@[simp] theorem lockStep_car (src : Source) (s : State) : (lockStep src s).car = s.car := rfl
@[simp] theorem lockStep_drv (src : Source) (s : State) : (lockStep src s).drv = s.drv := rfl
@[simp] theorem lockStep_ss (src : Source) (s : State) : (lockStep src s).ss = s.ss := rfl
@[simp] theorem lockStep_ct (src : Source) (s : State) : (lockStep src s).ct = s.ct := rfl
@[simp] theorem lockStep_dsp (src : Source) (s : State) : (lockStep src s).dsp = ⟨setTopPhase .locked s.dsp.stk, true, callOf src⟩ := rfl
@[simp] theorem lockStep_enc (src : Source) (s : State) : (lockStep src s).enc = { s.enc with arg := (if src = .ct then s.ct.cmdval else s.enc.arg), ret := none } := rfl
@[simp] theorem lockStep_rsp (src : Source) (s : State) : (lockStep src s).rsp = s.rsp := rfl
@[simp] theorem lockStep_started (src : Source) (s : State) : (lockStep src s).started = callOf src := rfl
@[simp] theorem lockStep_agenda (src : Source) (s : State) : (lockStep src s).agenda = s.agenda := rfl
@[simp] theorem lockStep_envTime (src : Source) (s : State) : (lockStep src s).envTime = s.envTime := rfl

end Sys2Proof.Machine
end

