-- ==== Sys2Proof/Laws/Ops.lean ====
section
/-! SUPPORT. The spec lemmas of the shared operations: what each can answer, said once. -/

namespace Sys2Proof.Machine

/-! ### The checks of a transaction -/

@[simp] theorem require_true (c : RespCode) (s r : State) : require true c s r = r := rfl
@[simp] theorem require_false (c : RespCode) (s r : State) : require false c s r = respond c 0 s := rfl

/-- A check either passes to the rest or answers its code. -/
theorem require_cases (b : Bool) (c : RespCode) (s r : State) :
    (b = true ∧ require b c s r = r) ∨ (b = false ∧ require b c s r = respond c 0 s) := by
  cases b <;> simp

@[simp] theorem requireHost_host (s r : State) : requireHost .host s r = r := rfl
@[simp] theorem requireHost_encoder (s r : State) : requireHost .encoder s r = respond .eAcc 0 s := rfl
@[simp] theorem hostRead_host (v : Word) (s : State) : hostRead .host v s = respond .ok v s := rfl
@[simp] theorem hostRead_encoder (v : Word) (s : State) : hostRead .encoder v s = respond .eAcc 0 s := rfl

theorem requireReady_of_ready {s : State} (h : s.drv.ready = true) (r : State) : requireReady s r = r := by
  simp [requireReady, h]

theorem requireReady_of_not_ready {s : State} (h : s.drv.ready = false) (r : State) :
    requireReady s r = respond .eNotrdy 0 s := by
  simp [requireReady, h]

/-- The requester check passes exactly for the host. -/
theorem requireHost_cases (rq : Requester) (s r : State) :
    (rq = .host ∧ requireHost rq s r = r) ∨ (rq = .encoder ∧ requireHost rq s r = respond .eAcc 0 s) := by
  cases rq <;> simp

/-- The check of the PWM surface passes exactly when construction has completed. -/
theorem requireReady_cases (s r : State) :
    (s.drv.ready = true ∧ requireReady s r = r) ∨ (s.drv.ready = false ∧ requireReady s r = respond .eNotrdy 0 s) :=
  require_cases _ _ _ _

/-- A read changes nothing but the response. -/
theorem hostRead_cases (rq : Requester) (v : Word) (s : State) :
    ∃ c d, hostRead rq v s = respond c d s := by
  cases rq
  · exact ⟨_, _, rfl⟩
  · exact ⟨_, _, rfl⟩

theorem surfaceRead_cases (v : Word) (s : State) : ∃ c d, surfaceRead v s = respond c d s := by
  rcases requireReady_cases s (respond .ok v s) with ⟨-, h⟩ | ⟨-, h⟩ <;> exact ⟨_, _, h⟩

/-! ### The dispatcher's stack -/

theorem topIs_iff (src : Source) (ph : Phase) (d : Dispatcher) :
    topIs src ph d = true ↔ ∃ rest, d.stk = ⟨src, ph⟩ :: rest := by
  unfold topIs
  cases d.stk <;> simp

theorem onStack_iff (src : Source) (d : Dispatcher) : onStack src d = true ↔ src ∈ d.stk.map (·.src) := by
  simp [onStack]

@[simp] theorem setTopPhase_nil (ph : Phase) : setTopPhase ph [] = [] := rfl
@[simp] theorem setTopPhase_cons (ph : Phase) (e : Entry) (r : List Entry) :
    setTopPhase ph (e :: r) = ⟨e.src, ph⟩ :: r := rfl

/-- Replacing the phase of the top entry keeps which sources are on the stack. -/
@[simp] theorem setTopPhase_map_src (ph : Phase) (l : List Entry) :
    (setTopPhase ph l).map (·.src) = l.map (·.src) := by
  cases l <;> rfl

@[simp] theorem setTopPhase_length (ph : Phase) (l : List Entry) : (setTopPhase ph l).length = l.length := by
  cases l <;> rfl

@[simp] theorem setTopPhase_tail (ph : Phase) (l : List Entry) : (setTopPhase ph l).tail = l.tail := by
  cases l <;> rfl

/-- `ENTER(s)` is enabled exactly under the four conditions of R198. -/
theorem enterEnabled_iff (prio : Source → Nat) (src : Source) (s : State) :
    enterEnabled prio src s = true ↔
      pending src s = true ∧ src ∉ s.dsp.stk.map (·.src) ∧ currentPriority prio s.dsp < prio src ∧
        ¬(pending (other src) s = true ∧ other src ∉ s.dsp.stk.map (·.src) ∧ prio src < prio (other src)) := by
  simp only [enterEnabled, Bool.and_eq_true, Bool.not_eq_true', decide_eq_true_eq, Bool.and_eq_false_iff,
    decide_eq_false_iff_not, ← onStack_iff, Bool.not_eq_true, Bool.not_eq_false']
  cases onStack src s.dsp <;> cases onStack (other src) s.dsp <;> cases pending (other src) s <;> simp [and_assoc]

@[simp] theorem currentPriority_host (prio : Source → Nat) (d : Dispatcher) (h : d.stk = []) :
    currentPriority prio d = 0 := by
  simp [currentPriority, h]

theorem currentPriority_locked (prio : Source → Nat) {d : Dispatcher} (hs : d.stk ≠ []) (hl : d.lock = true) :
    currentPriority prio d = max (prio .ss) (prio .ct) := by
  cases h : d.stk with
  | nil => exact absurd h hs
  | cons e r => simp [currentPriority, h, hl]

theorem currentPriority_unlocked (prio : Source → Nat) {d : Dispatcher} {e : Entry} {r : List Entry}
    (hs : d.stk = e :: r) (hl : d.lock = false) : currentPriority prio d = prio e.src := by
  simp [currentPriority, hs, hl]

/-! ### Flags -/

/-- The saturating counter is never 0 after an increment (R42, R183). -/
theorem saturatingSucc_ne_zero (n : Word) : saturatingSucc n ≠ 0 := by
  unfold saturatingSucc
  split
  · decide
  · rename_i h
    intro hc
    apply h
    have : n = 0 - 1 := by rw [← hc]; simp
    simpa using this

theorem clearPending_cases (src : Source) (s : State) :
    (src = .ss ∧ clearPending src s = s.withSs { s.ss with sspend := false }) ∨
    (src = .ct ∧ clearPending src s = s.withCt { s.ct with ctpend := false }) := by
  cases src
  · exact .inl ⟨rfl, rfl⟩
  · exact .inr ⟨rfl, rfl⟩

end Sys2Proof.Machine
end

