-- ==== Sys2Proof/Laws/Exec.lean ====
section
/-! SUPPORT. What an instruction can do to the state, said once: construction, the start of the sample timer, and then every
instruction. -/

namespace Sys2Proof.Machine

/-- The three ways construction ends (R140). -/
theorem construct_cases (b : Bool) (s : State) :
    (∃ c, clockDivider s.div.fin s.div.ftgt = .error c ∧ construct b s = failConstruction c (initStep1 s)) ∨
    (∃ d, clockDivider s.div.fin s.div.ftgt = .ok d ∧ b = true ∧
      construct b s = respond .ok 0 (initStep4 (initStep3 (initStep2 d (initStep1 s))))) ∨
    (∃ d, clockDivider s.div.fin s.div.ftgt = .ok d ∧ b = false ∧
      construct b s = failConstruction .pinSetup (initStep3 (initStep2 d (initStep1 s)))) := by
  have hdiv : (initStep1 s).div = s.div := rfl
  simp only [construct, hdiv]
  cases h : clockDivider s.div.fin s.div.ftgt with
  | error c => exact .inl ⟨c, rfl, rfl⟩
  | ok d =>
    cases b
    · exact .inr (.inr ⟨d, rfl, rfl, rfl⟩)
    · exact .inr (.inl ⟨d, rfl, rfl, rfl⟩)

/-- The two ways the start of the sample timer ends (R153). -/
theorem startSampling_cases (s : State) :
    (∃ c, clockDivider s.div.fin s.ss.fsmp = .error c ∧ startSampling s = respond (causeCode c) 0 s) ∨
    (∃ d, clockDivider s.div.fin s.ss.fsmp = .ok d ∧
      startSampling s = respond .ok 0 (s.withSs
        { s.ss with sspsc := d.prescaler, ssarr := d.reloadCount, sspcnt := 0, sscnt := 0, ssen := true })) := by
  unfold startSampling
  cases h : clockDivider s.div.fin s.ss.fsmp with
  | error c => exact .inl ⟨c, rfl, rfl⟩
  | ok d => exact .inr ⟨d, rfl, rfl⟩

/-- Every instruction in every state is answered with a next state. -/
theorem exec_next (i : Instr) (s : State) : ∃ t, exec i s = .next t := by
  cases i <;> exact ⟨_, rfl⟩

/-- Everything an instruction can do: answer without touching the block, or one of the named writes under its checks. -/
theorem exec_cases {i : Instr} {s t : State} (h : exec i s = .next t) :
    (∃ c d, t = respond c d s) ∨
    (∃ v, i = .setfin .host v ∧ t = respond .ok 0 (s.withDiv { s.div with fin := v })) ∨
    (∃ v, i = .setftgt .host v ∧ t = respond .ok 0 (s.withDiv { s.div with ftgt := v })) ∨
    (∃ v, i = .setfsmp .host v ∧ t = respond .ok 0 (s.withSs { s.ss with fsmp := v })) ∨
    (∃ v, i = .setcmd .host v ∧ s.ct.cten = false ∧
      t = respond .ok 0 (s.withCt { s.ct with cmdval := narrowCommand v })) ∨
    (∃ rq, i = .enable rq ∧ s.drv.ready = true ∧ t = respond .ok 0 (s.withCar { s.car with ocen := true })) ∨
    (∃ rq, i = .disable rq ∧ s.drv.ready = true ∧ t = respond .ok 0 (s.withCar { s.car with ocen := false })) ∨
    (∃ rq v, i = .setduty rq v ∧ s.drv.ready = true ∧
      t = respond .ok 0 (s.withCar { s.car with duty := narrowDuty v })) ∨
    (i = .init .host ∧ s.drv.ready = false ∧ s.drv.cfgerr = false ∧ t = construct Config.pinSetupSupported s) ∨
    (i = .ssstart .host ∧ s.drv.ready = true ∧ s.ss.ssen = false ∧ t = startSampling s) ∨
    (i = .ctarm .host ∧ s.drv.ready = true ∧ s.ct.cten = false ∧
      t = respond .ok 0 (s.withCt { s.ct with cten := true })) := by
  have read : ∀ rq v, (Host.Outcome.next (hostRead rq v s) : Result) = .next t → ∃ c d, t = respond c d s := fun rq v e => by
    cases e; exact hostRead_cases rq v s
  have sread : ∀ v, (Host.Outcome.next (surfaceRead v s) : Result) = .next t → ∃ c d, t = respond c d s := fun v e => by
    cases e; exact surfaceRead_cases v s
  cases i with
  | getfin rq => exact .inl (read _ _ h)
  | getftgt rq => exact .inl (read _ _ h)
  | getfsmp rq => exact .inl (read _ _ h)
  | getcmd rq => exact .inl (read _ _ h)
  | getdivpsc rq => exact .inl (read _ _ h)
  | getdivarr rq => exact .inl (read _ _ h)
  | getdivst rq => exact .inl (read _ _ h)
  | getctrl rq => exact .inl (read _ _ h)
  | getstatus rq => exact .inl (read _ _ h)
  | getpsc rq => exact .inl (read _ _ h)
  | getsspsc rq => exact .inl (read _ _ h)
  | getssarr rq => exact .inl (read _ _ h)
  | getbusycnt rq => exact .inl (read _ _ h)
  | getmaxduty rq => exact .inl (sread _ h)
  | getduty rq => exact .inl (sread _ h)
  | getocen rq => exact .inl (sread _ h)
  | setfin rq v =>
    cases rq <;> cases h
    · exact .inr (.inl ⟨v, rfl, rfl⟩)
    · exact .inl ⟨_, _, rfl⟩
  | setftgt rq v =>
    cases rq <;> cases h
    · exact .inr (.inr (.inl ⟨v, rfl, rfl⟩))
    · exact .inl ⟨_, _, rfl⟩
  | setfsmp rq v =>
    cases rq <;> cases h
    · exact .inr (.inr (.inr (.inl ⟨v, rfl, rfl⟩)))
    · exact .inl ⟨_, _, rfl⟩
  | setcmd rq v =>
    simp only [exec, execSetcmd] at h
    cases rq <;> cases h
    · simp only [requireHost_host]
      rcases require_cases (!s.ct.cten) .eState s
        (respond .ok 0 (s.withCt { s.ct with cmdval := narrowCommand v })) with ⟨g, e⟩ | ⟨-, e⟩
      · exact .inr (.inr (.inr (.inr (.inl ⟨v, rfl, by simpa using g, e⟩))))
      · exact .inl ⟨_, _, e⟩
    · exact .inl ⟨_, _, rfl⟩
  | enable rq =>
    simp only [exec, execEnable] at h
    cases h
    rcases requireReady_cases s (respond .ok 0 (s.withCar { s.car with ocen := true })) with ⟨g, e⟩ | ⟨-, e⟩
    · exact .inr (.inr (.inr (.inr (.inr (.inl ⟨rq, rfl, g, e⟩)))))
    · exact .inl ⟨_, _, e⟩
  | disable rq =>
    simp only [exec, execDisable] at h
    cases h
    rcases requireReady_cases s (respond .ok 0 (s.withCar { s.car with ocen := false })) with ⟨g, e⟩ | ⟨-, e⟩
    · exact .inr (.inr (.inr (.inr (.inr (.inr (.inl ⟨rq, rfl, g, e⟩))))))
    · exact .inl ⟨_, _, e⟩
  | setduty rq v =>
    simp only [exec, execSetduty] at h
    cases h
    rcases requireReady_cases s (respond .ok 0 (s.withCar { s.car with duty := narrowDuty v })) with ⟨g, e⟩ | ⟨-, e⟩
    · exact .inr (.inr (.inr (.inr (.inr (.inr (.inr (.inl ⟨rq, v, rfl, g, e⟩)))))))
    · exact .inl ⟨_, _, e⟩
  | init rq =>
    simp only [exec, execInit] at h
    cases rq <;> cases h
    · simp only [requireHost_host]
      rcases require_cases (!s.drv.ready && !s.drv.cfgerr) .eState s (construct Config.pinSetupSupported s)
        with ⟨g, e⟩ | ⟨-, e⟩
      · simp only [Bool.and_eq_true, Bool.not_eq_true'] at g
        exact .inr (.inr (.inr (.inr (.inr (.inr (.inr (.inr (.inl ⟨trivial, g.1, g.2, e⟩))))))))
      · exact .inl ⟨_, _, e⟩
    · exact .inl ⟨_, _, rfl⟩
  | ssstart rq =>
    simp only [exec, execSsstart] at h
    cases rq <;> cases h
    · simp only [requireHost_host]
      rcases requireReady_cases s (require (!s.ss.ssen) .eState s (startSampling s)) with ⟨g, e⟩ | ⟨-, e⟩
      · rw [e]
        rcases require_cases (!s.ss.ssen) .eState s (startSampling s) with ⟨g', e'⟩ | ⟨-, e'⟩
        · exact .inr (.inr (.inr (.inr (.inr (.inr (.inr (.inr (.inr (.inl ⟨trivial, g, by simpa using g', e'⟩)))))))))
        · exact .inl ⟨_, _, e'⟩
      · exact .inl ⟨_, _, e⟩
    · exact .inl ⟨_, _, rfl⟩
  | ctarm rq =>
    simp only [exec, execCtarm] at h
    cases rq <;> cases h
    · simp only [requireHost_host]
      rcases requireReady_cases s (require (!s.ct.cten) .eState s (respond .ok 0 (s.withCt { s.ct with cten := true })))
        with ⟨g, e⟩ | ⟨-, e⟩
      · rw [e]
        rcases require_cases (!s.ct.cten) .eState s (respond .ok 0 (s.withCt { s.ct with cten := true }))
          with ⟨g', e'⟩ | ⟨-, e'⟩
        · exact .inr (.inr (.inr (.inr (.inr (.inr (.inr (.inr (.inr (.inr ⟨trivial, g, by simpa using g', e'⟩)))))))))
        · exact .inl ⟨_, _, e'⟩
      · exact .inl ⟨_, _, e⟩
    · exact .inl ⟨_, _, rfl⟩

/-- No instruction reaches the dispatcher, the encoder or the inputs of the block. -/
theorem exec_frame {i : Instr} {s t : State} (h : exec i s = .next t) :
    t.dsp = s.dsp ∧ t.enc = s.enc ∧ t.agenda = s.agenda ∧ t.envTime = s.envTime := by
  have hc : ∀ b, (construct b s).dsp = s.dsp ∧ (construct b s).enc = s.enc ∧ (construct b s).agenda = s.agenda ∧
      (construct b s).envTime = s.envTime := fun b => by
    rcases construct_cases b s with ⟨c, -, e⟩ | ⟨d, -, -, e⟩ | ⟨d, -, -, e⟩ <;> rw [e] <;> exact ⟨rfl, rfl, rfl, rfl⟩
  have hs : (startSampling s).dsp = s.dsp ∧ (startSampling s).enc = s.enc ∧ (startSampling s).agenda = s.agenda ∧
      (startSampling s).envTime = s.envTime := by
    rcases startSampling_cases s with ⟨c, -, e⟩ | ⟨d, -, e⟩ <;> rw [e] <;> exact ⟨rfl, rfl, rfl, rfl⟩
  rcases exec_cases h with ⟨c, d, rfl⟩ | ⟨v, -, rfl⟩ | ⟨v, -, rfl⟩ | ⟨v, -, rfl⟩ | ⟨v, -, -, rfl⟩ | ⟨rq, -, -, rfl⟩ |
    ⟨rq, -, -, rfl⟩ | ⟨rq, v, -, -, rfl⟩ | ⟨-, -, -, rfl⟩ | ⟨-, -, -, rfl⟩ | ⟨-, -, -, rfl⟩
  case inr.inr.inr.inr.inr.inr.inr.inr.inl => exact hc _
  case inr.inr.inr.inr.inr.inr.inr.inr.inr.inl => exact hs
  all_goals exact ⟨rfl, rfl, rfl, rfl⟩

end Sys2Proof.Machine
end

