-- ==== Sys2Proof/Laws/Agents.lean ====
section
/-! SUPPORT. What a step can do, said once: which step is attempted, and everything each agent's step can answer. -/

namespace Sys2Proof.Machine

@[simp] theorem consume_div (s : State) : (consume s).div = s.div := by unfold consume; split <;> rfl
@[simp] theorem consume_car (s : State) : (consume s).car = s.car := by unfold consume; split <;> rfl
@[simp] theorem consume_drv (s : State) : (consume s).drv = s.drv := by unfold consume; split <;> rfl
@[simp] theorem consume_ss (s : State) : (consume s).ss = s.ss := by unfold consume; split <;> rfl
@[simp] theorem consume_ct (s : State) : (consume s).ct = s.ct := by unfold consume; split <;> rfl
@[simp] theorem consume_dsp (s : State) : (consume s).dsp = s.dsp := by unfold consume; split <;> rfl
@[simp] theorem consume_enc (s : State) : (consume s).enc = s.enc := by unfold consume; split <;> rfl
@[simp] theorem consume_rsp (s : State) : (consume s).rsp = none := by unfold consume; split <;> rfl
@[simp] theorem consume_started (s : State) : (consume s).started = .none := by unfold consume; split <;> rfl
@[simp] theorem consume_agenda (s : State) : (consume s).agenda = s.agenda.tail := by
  unfold consume; split <;> simp_all

theorem nextEvent_of_agenda {s : State} {e : Event} {rest : List Event} (h : s.agenda = e :: rest) : nextEvent s = e := by
  simp [nextEvent, h]

theorem nextEvent_of_empty {s : State} (h : s.agenda = []) : nextEvent s = Config.environment s.envTime := by
  simp [nextEvent, h]

theorem step_eq (s : State) : step s = runEvent (nextEvent s) (consume s) := rfl

/-- What the port answers to a word. -/
theorem runWord_cases {w : TxnWord} {s t : State} (h : runWord w s = .next t) :
    (∃ i, decode w = .ok i ∧ exec i s = .next t) ∨
    (∃ e, decode w = .error e ∧ t = respond (refusalCode e) 0 s) := by
  unfold runWord at h
  split at h
  · exact .inl ⟨_, ‹_›, h⟩
  · cases h
    exact .inr ⟨_, ‹_›, rfl⟩

/-- Everything an attempted step can do: nothing where it is not enabled, and otherwise its agent's effect. -/
theorem runEvent_cases {e : Event} {s t : State} (h : runEvent e s = .next t) :
    (eventEnabled e s = false ∧ t = s) ∨
    (∃ b, e = .clk b ∧ t = clkStep b s) ∨
    (∃ w, e = .txn w ∧ txnEnabled w s = true ∧ runWord w s = .next t) ∨
    (∃ k src, e = .dsp k src ∧ dspEnabled Config.prio k src s = true ∧ t = dspEffect k src s) ∨
    (e = .encReturn ∧ encReturnEnabled s = true ∧ t = encReturn s) ∨
    (e = .reset ∧ t = resetStep s) := by
  unfold runEvent at h
  split at h
  · rename_i he
    cases e with
    | clk b => cases h; exact .inr (.inl ⟨b, rfl, rfl⟩)
    | txn w => exact .inr (.inr (.inl ⟨w, rfl, he, h⟩))
    | dsp k src => cases h; exact .inr (.inr (.inr (.inl ⟨k, src, rfl, he, rfl⟩)))
    | encReturn => cases h; exact .inr (.inr (.inr (.inr (.inl ⟨rfl, he, rfl⟩))))
    | reset => cases h; exact .inr (.inr (.inr (.inr (.inr ⟨rfl, rfl⟩))))
  · rename_i he
    cases h
    exact .inl ⟨by simpa using he, rfl⟩

/-- The two ways `RETURN` ends (R183, R200). -/
theorem returnStep_cases (src : Source) (s : State) :
    (src = .ct ∧ s.enc.ret = some .encoderBusy ∧ returnStep src s = reportBusy (unlock s)) ∨
    (¬(src = .ct ∧ s.enc.ret = some .encoderBusy) ∧ returnStep src s = unlock s) := by
  unfold returnStep
  split
  · rename_i h; exact .inl ⟨h.1, h.2, rfl⟩
  · exact .inr ⟨‹_›, rfl⟩

/-- The return of an encoder call changes the encoder only (R176). -/
theorem encReturn_cases (s : State) :
    (s.dsp.call = .none ∧ encReturn s = s) ∨
    (s.dsp.call = .tick ∧
      encReturn s = s.withEnc { s.enc with es := encTick Config.encLen s.enc.es, ret := some .ok }) ∨
    (s.dsp.call = .load ∧
      encReturn s = s.withEnc { s.enc with es := encLoad s.enc.arg s.enc.es, ret := some (encLoadResult s.enc.es) }) := by
  unfold encReturn
  cases h : s.dsp.call with
  | none => exact .inl ⟨rfl, rfl⟩
  | tick => exact .inr (.inl ⟨rfl, rfl⟩)
  | load => exact .inr (.inr ⟨rfl, rfl⟩)

/-- A host transaction is enabled exactly while no handler sequence is active (R11). -/
theorem txnEnabled_host {t : TxnWord} (h : rqOf t = .host) (s : State) : txnEnabled t s = true ↔ s.dsp.stk = [] := by
  simp [txnEnabled, h]

/-- The address of a word that the encoder may issue in some call. -/
theorem addressesRegister_iff (t : TxnWord) : addressesRegister t = true ↔ (addrOf t).toNat % 4 = 0 ∧ (addrOf t).toNat < 0x40 := by
  have := regAt_eq_none_iff (addrOf t)
  cases h : regAt (addrOf t) <;> simp [addressesRegister, h] at this ⊢ <;> omega

/-- When the encoder may issue a word, in full (R172, R173, R174, R205). -/
theorem encMayIssue_iff (t : TxnWord) (s : State) :
    encMayIssue t s = true ↔ addressesRegister t = true ∧ s.enc.ret = none ∧
      ((s.dsp.call = .tick ∧ s.enc.es ≠ .idle) ∨ (s.dsp.call = .load ∧ (s.enc.es = .idle ∨ writesWaveform t = false))) := by
  unfold encMayIssue
  cases s.dsp.call <;> simp [and_assoc]

/-- Letting the issuer of a word act changes the dispatcher and the encoder's pending return, nothing else. -/
theorem letIssue_frame (t : TxnWord) (s : State) :
    (letIssue t s).div = s.div ∧ (letIssue t s).car = s.car ∧ (letIssue t s).drv = s.drv ∧ (letIssue t s).ss = s.ss ∧
      (letIssue t s).ct = s.ct ∧ (letIssue t s).enc.es = s.enc.es ∧ (letIssue t s).rsp = s.rsp ∧ (letIssue t s).agenda = s.agenda ∧
      (letIssue t s).envTime = s.envTime := by
  unfold letIssue
  split
  · exact ⟨rfl, rfl, rfl, rfl, rfl, rfl, rfl, rfl, rfl⟩
  · cases rqOf t <;> exact ⟨rfl, rfl, rfl, rfl, rfl, rfl, rfl, rfl, rfl⟩

end Sys2Proof.Machine
end

