-- ==== Sys2Proof/Laws/ClockDivider.lean ====
section
/-! SUPPORT. The spec lemmas of `ClockDivider`: the size of `p`, and everything the function can answer. -/

namespace Sys2Proof.Machine

/-- `p` is at least 1 and at most the ratio once the ratio is not 0 (R104 item 3). -/
theorem ceilPrescale_bounds {r : Nat} (h : r ≠ 0) : 1 ≤ ceilPrescale r ∧ ceilPrescale r ≤ r := by
  unfold ceilPrescale
  split <;> omega

/-- `p` does not exceed 65536 for a 32-bit ratio (R104 item 4). -/
theorem ceilPrescale_le {r : Nat} (h : r < 2 ^ 32) : ceilPrescale r ≤ 65536 := by
  unfold ceilPrescale
  split <;> omega

/-- `65536 * p` covers the ratio, and no smaller `p` does (R102). -/
theorem ceilPrescale_covers (r : Nat) : r ≤ 65536 * ceilPrescale r ∧ ∀ p, r ≤ 65536 * p → ceilPrescale r ≤ p := by
  unfold ceilPrescale
  refine ⟨?_, fun p hp => ?_⟩ <;> split <;> omega

/-- The quotient `q` lies in 1 .. 65536 (R100). -/
theorem quotient_bounds {r : Nat} (h : r ≠ 0) : 1 ≤ r / ceilPrescale r ∧ r / ceilPrescale r ≤ 65536 := by
  have hb := ceilPrescale_bounds h
  have hc := (ceilPrescale_covers r).1
  refine ⟨Nat.div_pos hb.2 (by omega), ?_⟩
  rw [Nat.div_le_iff_le_mul_add_pred (by omega)]
  rw [Nat.mul_comm]; omega

/-- Everything `ClockDivider` can answer (R100, R104). -/
theorem clockDivider_cases (i t : Word) :
    (t = 0 ∧ clockDivider i t = .error .targetZero) ∨
    (t ≠ 0 ∧ i.toNat / t.toNat = 0 ∧ clockDivider i t = .error .ratioZero) ∨
    (t ≠ 0 ∧ i.toNat / t.toNat ≠ 0 ∧ clockDivider i t =
      .ok ⟨BitVec.ofNat 16 (ceilPrescale (i.toNat / t.toNat) - 1),
        BitVec.ofNat 16 (i.toNat / t.toNat / ceilPrescale (i.toNat / t.toNat) - 1)⟩) := by
  by_cases ht : t = 0
  · exact .inl ⟨ht, by simp [clockDivider, ht]⟩
  by_cases hr : i.toNat / t.toNat = 0
  · exact .inr (.inl ⟨ht, hr, by simp only [clockDivider, ht, hr, if_true, if_false]⟩)
  refine .inr (.inr ⟨ht, hr, ?_⟩)
  have hq := (quotient_bounds hr).1
  have hlt : i.toNat / t.toNat < 2 ^ 32 := Nat.lt_of_le_of_lt (Nat.div_le_self _ _) i.isLt
  have hp := ceilPrescale_le hlt
  simp only [clockDivider, ht, hr, if_false]
  rw [if_neg (by omega), if_neg (by omega)]

end Sys2Proof.Machine
end

