-- ==== Sys2Proof/Laws/PerInstr.lean ====
section
/-! SUPPORT. Facts about every instruction as a term, one lemma per constructor (LAWS.json, "per_instruction"). -/

namespace Sys2Proof.Laws

/-- The word of an instruction carries its requester in bit 41, and every bit its row ignores is 0 (R80, R81). -/
def CanonicalWord.Statement (i : Instr) : Prop := rqOf (encode i) = requesterOf i ∧ canonical (encode i) = encode i

/-- A write to a register other than `OCEN` has no ignored bits. -/
theorem canonical_write (rq : Requester) (a : Addr) (w : Word) (ha : a ≠ 0x30) :
    canonical (txnWord rq 1#1 a w) = txnWord rq 1#1 a w := by
  have h : (1#1).getLsbD 0 = true := rfl
  simp only [canonical, weOf_txnWord, addrOf_txnWord, h, ha, if_true, if_false]

theorem CanonicalWord.setfin (rq : Requester) (imm : Word) : CanonicalWord.Statement (.setfin rq imm) :=
  ⟨rqOf_txnWord _ _ _ _, canonical_write _ _ _ (by decide)⟩

theorem CanonicalWord.getfin (rq : Requester) : CanonicalWord.Statement (.getfin rq) := by
  cases rq <;> exact ⟨rfl, rfl⟩

theorem CanonicalWord.setftgt (rq : Requester) (imm : Word) : CanonicalWord.Statement (.setftgt rq imm) :=
  ⟨rqOf_txnWord _ _ _ _, canonical_write _ _ _ (by decide)⟩

theorem CanonicalWord.getftgt (rq : Requester) : CanonicalWord.Statement (.getftgt rq) := by
  cases rq <;> exact ⟨rfl, rfl⟩

theorem CanonicalWord.setfsmp (rq : Requester) (imm : Word) : CanonicalWord.Statement (.setfsmp rq imm) :=
  ⟨rqOf_txnWord _ _ _ _, canonical_write _ _ _ (by decide)⟩

theorem CanonicalWord.getfsmp (rq : Requester) : CanonicalWord.Statement (.getfsmp rq) := by
  cases rq <;> exact ⟨rfl, rfl⟩

theorem CanonicalWord.setcmd (rq : Requester) (imm : Word) : CanonicalWord.Statement (.setcmd rq imm) :=
  ⟨rqOf_txnWord _ _ _ _, canonical_write _ _ _ (by decide)⟩

theorem CanonicalWord.getcmd (rq : Requester) : CanonicalWord.Statement (.getcmd rq) := by
  cases rq <;> exact ⟨rfl, rfl⟩

theorem CanonicalWord.getdivpsc (rq : Requester) : CanonicalWord.Statement (.getdivpsc rq) := by
  cases rq <;> exact ⟨rfl, rfl⟩

theorem CanonicalWord.getdivarr (rq : Requester) : CanonicalWord.Statement (.getdivarr rq) := by
  cases rq <;> exact ⟨rfl, rfl⟩

theorem CanonicalWord.getdivst (rq : Requester) : CanonicalWord.Statement (.getdivst rq) := by
  cases rq <;> exact ⟨rfl, rfl⟩

theorem CanonicalWord.getctrl (rq : Requester) : CanonicalWord.Statement (.getctrl rq) := by
  cases rq <;> exact ⟨rfl, rfl⟩

theorem CanonicalWord.init (rq : Requester) : CanonicalWord.Statement (.init rq) := by
  cases rq <;> exact ⟨rfl, rfl⟩

theorem CanonicalWord.ssstart (rq : Requester) : CanonicalWord.Statement (.ssstart rq) := by
  cases rq <;> exact ⟨rfl, rfl⟩

theorem CanonicalWord.ctarm (rq : Requester) : CanonicalWord.Statement (.ctarm rq) := by
  cases rq <;> exact ⟨rfl, rfl⟩

theorem CanonicalWord.getstatus (rq : Requester) : CanonicalWord.Statement (.getstatus rq) := by
  cases rq <;> exact ⟨rfl, rfl⟩

theorem CanonicalWord.getpsc (rq : Requester) : CanonicalWord.Statement (.getpsc rq) := by
  cases rq <;> exact ⟨rfl, rfl⟩

theorem CanonicalWord.getmaxduty (rq : Requester) : CanonicalWord.Statement (.getmaxduty rq) := by
  cases rq <;> exact ⟨rfl, rfl⟩

theorem CanonicalWord.getduty (rq : Requester) : CanonicalWord.Statement (.getduty rq) := by
  cases rq <;> exact ⟨rfl, rfl⟩

theorem CanonicalWord.setduty (rq : Requester) (imm : Word) : CanonicalWord.Statement (.setduty rq imm) :=
  ⟨rqOf_txnWord _ _ _ _, canonical_write _ _ _ (by decide)⟩

theorem CanonicalWord.getocen (rq : Requester) : CanonicalWord.Statement (.getocen rq) := by
  cases rq <;> exact ⟨rfl, rfl⟩

theorem CanonicalWord.enable (rq : Requester) : CanonicalWord.Statement (.enable rq) := by
  cases rq <;> exact ⟨rfl, rfl⟩

theorem CanonicalWord.disable (rq : Requester) : CanonicalWord.Statement (.disable rq) := by
  cases rq <;> exact ⟨rfl, rfl⟩

theorem CanonicalWord.getsspsc (rq : Requester) : CanonicalWord.Statement (.getsspsc rq) := by
  cases rq <;> exact ⟨rfl, rfl⟩

theorem CanonicalWord.getssarr (rq : Requester) : CanonicalWord.Statement (.getssarr rq) := by
  cases rq <;> exact ⟨rfl, rfl⟩

theorem CanonicalWord.getbusycnt (rq : Requester) : CanonicalWord.Statement (.getbusycnt rq) := by
  cases rq <;> exact ⟨rfl, rfl⟩

end Sys2Proof.Laws
end

