-- ==== Sys2Proof/Laws/Runs.lean ====
section
/-! SUPPORT. The spec lemmas of runs: what an offered step does, the two particulars R10 names, and how a run stands to the
machine's own free choice. -/

namespace Sys2Proof.Machine

/-- The state in which an offered step is attempted: nothing stands on the output ports and the agenda is empty. -/
theorem step_offer (s : State) (e : Event) :
    step (s.offer e) = runEvent e ({ s with started := .none }.withPorts none [] s.envTime) := rfl

/-- Whether a step is enabled does not depend on the ports of the state. -/
theorem eventEnabled_ports (e : Event) (s : State) (r : Option Response) (c : Call) (a : List Event) (n : Nat) :
    eventEnabled e ({ s with started := c }.withPorts r a n) = eventEnabled e s := by
  cases e with
  | dsp k src => cases k <;> cases src <;> rfl
  | txn t => simp only [eventEnabled, txnEnabled]; cases rqOf t <;> rfl
  | _ => rfl

/-- R10: the clock keeps running. -/
theorem clock_keeps_running {env : Nat → Event} {r : Nat → State} (h : ClockFair env r) (n : Nat) :
    ∃ m, n ≤ m ∧ ∃ b, env m = .clk b := by
  obtain ⟨m, hm, hb, -⟩ := h n fun m _ => ⟨.clk true, ⟨true, rfl⟩, rfl⟩
  exact ⟨m, hm, hb⟩

/-- R10: an `ENTER` that stays enabled is taken. -/
theorem enabled_enter_is_taken {env : Nat → Event} {r : Nat → State} (h : DispatcherFair env r) (src : Source) (n : Nat)
    (hen : ∀ m, n ≤ m → enterEnabled Config.prio src (r m) = true) :
    ∃ m, n ≤ m ∧ env m = .dsp .enter src ∧ enterEnabled Config.prio src (r m) = true := by
  obtain ⟨m, hm, ha, -⟩ := h .enter src n fun m hm => ⟨_, rfl, hen m hm⟩
  exact ⟨m, hm, ha, hen m hm⟩

/-- With nothing placed, the machine's own step is the offered step for its free choice, counted. -/
theorem step_of_empty {s : State} (h : s.agenda = []) :
    step s = runEvent (Config.environment s.envTime) ({ s with started := .none }.withPorts none [] (s.envTime + 1)) := by
  rw [step_eq, nextEvent_of_empty h]
  unfold consume
  rw [h]

end Sys2Proof.Machine
end

