-- ==== Sys2Proof/Machine/Assembler.lean ====
section
/-! DEFINITION. The assembler syntax and the pseudo-instructions (spec/30_encoding.md R89, R90): what a line of a program and
one of the document's operations stand for. The block itself never reads a line. -/

namespace Sys2Proof.Machine

/-- The instruction of a mnemonic, requester and immediate (R89). -/
def instrOf (m : Mnemonic) (rq : Requester) (imm : Word) : Instr :=
  match m with
  | .SETFIN => .setfin rq imm
  | .GETFIN => .getfin rq
  | .SETFTGT => .setftgt rq imm
  | .GETFTGT => .getftgt rq
  | .SETFSMP => .setfsmp rq imm
  | .GETFSMP => .getfsmp rq
  | .SETCMD => .setcmd rq imm
  | .GETCMD => .getcmd rq
  | .GETDIVPSC => .getdivpsc rq
  | .GETDIVARR => .getdivarr rq
  | .GETDIVST => .getdivst rq
  | .GETCTRL => .getctrl rq
  | .INIT => .init rq
  | .SSSTART => .ssstart rq
  | .CTARM => .ctarm rq
  | .GETSTATUS => .getstatus rq
  | .GETPSC => .getpsc rq
  | .GETMAXDUTY => .getmaxduty rq
  | .GETDUTY => .getduty rq
  | .SETDUTY => .setduty rq imm
  | .GETOCEN => .getocen rq
  | .ENABLE => .enable rq
  | .DISABLE => .disable rq
  | .GETSSPSC => .getsspsc rq
  | .GETSSARR => .getssarr rq
  | .GETBUSYCNT => .getbusycnt rq

/-- The steps a line stands for, given the button level before it, and the level after it. A `DSP RETURN` line covers the
encoder's return on `enc_ret` and the dispatcher's step that takes it (DESIGN CHOICE, safe, log 9). -/
def lineEvents (btn : Bool) (l : Line) : List Event × Bool :=
  match l with
  | .instr rq m imm => ([.txn (encode (instrOf m rq (BitVec.ofNat 32 (imm.getD 0))))], btn)
  | .rd rq a => ([.txn (txnWord rq 0#1 (BitVec.ofNat 8 a) 0#32)], btn)
  | .wr rq a v => ([.txn (txnWord rq 1#1 (BitVec.ofNat 8 a) (BitVec.ofNat 32 v))], btn)
  | .clk n b => (List.replicate n (.clk (b.getD btn)), b.getD btn)
  | .dsp .ret src => ([.encReturn, .dsp .ret src], btn)
  | .dsp k src => ([.dsp k src], btn)
  | .reset => ([.reset], btn)

/-- The steps of a program (R89): a line that is not well-formed stands for none; the button level is 1 at the start. -/
def assemble (btn : Bool) (p : List Line) : Option (List Event) :=
  match p with
  | [] => some []
  | l :: rest =>
    if l.wellFormed then
      (assemble (lineEvents btn l).2 rest).map (fun es => (lineEvents btn l).1 ++ es)
    else none

/-- `enable()` (R90). -/
def pseudoEnable : List Instr := [.enable .host]

/-- `disable()` (R90). -/
def pseudoDisable : List Instr := [.disable .host]

/-- `getDuty()` (R90). -/
def pseudoGetDuty : List Instr := [.getduty .host]

/-- `setDuty(v)` (R90). -/
def pseudoSetDuty (v : Word) : List Instr := [.setduty .host v]

/-- `getMaxDuty()` (R90). -/
def pseudoGetMaxDuty : List Instr := [.getmaxduty .host]

/-- `clockDivider(i, t)` (R90). -/
def pseudoClockDivider (i t : Word) : List Instr :=
  [.setfin .host i, .setftgt .host t, .getdivst .host, .getdivpsc .host, .getdivarr .host]

/-- `construct(i, t)` (R90). -/
def pseudoConstruct (i t : Word) : List Instr := [.setfin .host i, .setftgt .host t, .init .host]

/-- `startSampling(r)` (R90). -/
def pseudoStartSampling (r : Word) : List Instr := [.setfsmp .host r, .ssstart .host]

/-- `armTrigger(c)` (R90). -/
def pseudoArmTrigger (c : Word) : List Instr := [.setcmd .host c, .ctarm .host]

end Sys2Proof.Machine
end

