-- ==== Sys2Proof/Tests/Slice0.lean ====
section
/-! SUPPORT. Tests. Every expected value comes from the spec, not from the model: the file and vector is named at each group
(most from spec/95_test_vectors.md, written "95"). After the tests, the witnesses: for every statement that has hypotheses, a
concrete state and operands that meet them, clause by clause. -/

namespace Sys2Proof.Tests

open Sys2Proof.Machine Sys2Proof.Safety

/-! ### Small states -/

/-- After `SETFIN 12; SETFTGT 3; INIT -> OK` (95, 2.2): `PSC = 0`, `ARR = 3`, `DUTY = 1`. -/
def built : State := construct true (State.reset.withDiv ⟨12, 3⟩)

/-- `built`, then `ENABLE`. -/
def enabled : State := built.withCar { built.car with ocen := true }

/-- `built`, then `SETFSMP 2; SSSTART` (95, 2.4 vector 7). -/
def sampling : State := startSampling (built.withSs { built.ss with fsmp := 2 })

/-- `sampling` with `SSPEND = 1`. -/
def ssDue : State := sampling.withSs { sampling.ss with sspend := true }

/-- `built` with the trigger armed, the button at 1 at the last edge. -/
def ctArmed : State := built.withCt { built.ct with cten := true, btnq := true, cmdval := 0x408 }

/-- `ctArmed` with `CTPEND = 1`. -/
def ctDue : State := ctArmed.withCt { ctArmed.ct with ctpend := true }

/-- A state whose only active handler sequence is that of `src`, in the given phase. -/
def inPhase (s : State) (src : Source) (ph : Phase) : State :=
  s.withDsp ⟨[⟨src, ph⟩], ph == .locked, if ph = .locked then callOf src else .none⟩

/-- The answer of an instruction. -/
def answer (r : Result) : Option Response :=
  match r with
  | .next s => s.rsp
  | .fault _ => none
  | .refused _ => none

/-- `CNT` and `OUT` after one edge at which `CNT` stands at each of the given values. -/
def edges (c : CarUnit) (cnts : List Half) : List (Half × Bool) :=
  cnts.map (fun n => ((carClk true { c with cnt := n }).cnt, (carClk true { c with cnt := n }).out))

/-! ### Well-formedness: one ill-formed line for each check (R89, R28) -/

theorem test_refuses_missing_immediate : Line.wellFormed (.instr .host .SETFIN none) = false := by decide
theorem test_refuses_superfluous_immediate : Line.wellFormed (.instr .host .GETFIN (some 0)) = false := by decide
theorem test_refuses_immediate_of_command : Line.wellFormed (.instr .host .INIT (some 1)) = false := by decide
theorem test_refuses_wide_immediate : Line.wellFormed (.instr .host .SETDUTY (some (2 ^ 32))) = false := by decide
theorem test_refuses_wide_read_address : Line.wellFormed (.rd .host 256) = false := by decide
theorem test_refuses_wide_write_address : Line.wellFormed (.wr .host 256 0) = false := by decide
theorem test_refuses_wide_write_data : Line.wellFormed (.wr .host 0 (2 ^ 32)) = false := by decide
theorem test_accepts_widest : Line.wellFormed (.instr .host .SETDUTY (some (2 ^ 32 - 1))) = true := by decide
theorem test_ill_formed_program : assemble true [.reset, .instr .host .SETFIN none] = none := by rfl

/-! ### Decoding: the word of every row (R84), fields and operands as 95 writes them out -/

theorem test_decode_div :
    decode 0x10000F42400 = .ok (.setfin .host 16000000) ∧ decode 0x00000000000 = .ok (.getfin .host) ∧
    decode 0x10400009470 = .ok (.setftgt .host 38000) ∧ decode 0x00400000000 = .ok (.getftgt .host) ∧
    decode 0x01000000000 = .ok (.getdivpsc .host) ∧ decode 0x01400000000 = .ok (.getdivarr .host) ∧
    decode 0x01800000000 = .ok (.getdivst .host) := ⟨rfl, rfl, rfl, rfl, rfl, rfl, rfl⟩

theorem test_decode_car :
    decode 0x02400000000 = .ok (.getpsc .host) ∧ decode 0x02800000000 = .ok (.getmaxduty .host) ∧
    decode 0x02C00000000 = .ok (.getduty .host) ∧ decode 0x12C00000069 = .ok (.setduty .host 105) ∧
    decode 0x03000000000 = .ok (.getocen .host) ∧ decode 0x130FFFFFFFF = .ok (.enable .host) ∧
    decode 0x130FFFFFFFE = .ok (.disable .host) ∧ decode 0x33000000001 = .ok (.enable .encoder) :=
  ⟨rfl, rfl, rfl, rfl, rfl, rfl, rfl, rfl⟩

theorem test_decode_drv_ss_ct :
    decode 0x01C00000000 = .ok (.getctrl .host) ∧ decode 0x11C00000001 = .ok (.init .host) ∧
    decode 0x02000000000 = .ok (.getstatus .host) ∧ decode 0x1080000000D = .ok (.setfsmp .host 13) ∧
    decode 0x00800000000 = .ok (.getfsmp .host) ∧ decode 0x11C00000002 = .ok (.ssstart .host) ∧
    decode 0x03400000000 = .ok (.getsspsc .host) ∧ decode 0x03800000000 = .ok (.getssarr .host) ∧
    decode 0x10C00010408 = .ok (.setcmd .host 0x10408) ∧ decode 0x00C00000000 = .ok (.getcmd .host) ∧
    decode 0x11C00000003 = .ok (.ctarm .host) ∧ decode 0x03C00000000 = .ok (.getbusycnt .host) :=
  ⟨rfl, rfl, rfl, rfl, rfl, rfl, rfl, rfl, rfl, rfl, rfl, rfl⟩

/-- 95, 2.6, vectors 1 to 10. -/
theorem test_illegal_words_of_host :
    [0x04000000000, 0x00100000000, 0x02E00000000, 0x1FC00000005, 0x12000000001, 0x12800000001, 0x11000000000,
      0x11C00000000, 0x11C00000004, 0x11C80000001].map (fun t : TxnWord => answer (runWord t State.reset)) =
    [some ⟨.eAddr, 0⟩, some ⟨.eAddr, 0⟩, some ⟨.eAddr, 0⟩, some ⟨.eAddr, 0⟩, some ⟨.eRo, 0⟩, some ⟨.eRo, 0⟩,
      some ⟨.eRo, 0⟩, some ⟨.eCmd, 0⟩, some ⟨.eCmd, 0⟩, some ⟨.eCmd, 0⟩] := by rfl

/-- 95, 2.6, vectors 11 to 18. -/
theorem test_words_of_encoder :
    [0x22000000000, 0x32000000001, 0x31C00000009, 0x31C00000001, 0x22800000000, 0x32800000001, 0x24400000000,
      0x30000000001].map (fun t : TxnWord => answer (runWord t State.reset)) =
    [some ⟨.eAcc, 0⟩, some ⟨.eAcc, 0⟩, some ⟨.eAcc, 0⟩, some ⟨.eAcc, 0⟩, some ⟨.eNotrdy, 0⟩, some ⟨.eRo, 0⟩,
      some ⟨.eAddr, 0⟩, some ⟨.eAcc, 0⟩] := by rfl

/-- The host's numbering: bits past the 42 lines are dropped (log 7). -/
theorem test_decodeTableWord :
    decodeTableWord 48 0x13000000001 = some (.enable .host) ∧ decodeTableWord 48 0x11C00000004 = none ∧
    decodeTableWord 48 0x33000000000 = some (.disable .encoder) := ⟨rfl, rfl, rfl⟩

/-! ### DIV (95, 2.1) -/

theorem test_divider_vectors :
    clockDivider 16000000 20000 = .ok ⟨0, 799⟩ ∧ clockDivider 100 7 = .ok ⟨0, 13⟩ ∧
    clockDivider 65536 1 = .ok ⟨0, 65535⟩ ∧ clockDivider 131073 1 = .ok ⟨2, 43690⟩ ∧
    clockDivider 200003 1 = .ok ⟨3, 49999⟩ ∧ clockDivider 4294901761 1 = .ok ⟨65535, 65534⟩ ∧
    clockDivider 0 5 = .error .ratioZero ∧ clockDivider 5 0 = .error .targetZero :=
  ⟨rfl, rfl, rfl, rfl, rfl, rfl, rfl, rfl⟩

theorem test_setfin_keeps_all_bits :
    answer (exec (.getfin .host) (State.reset.withDiv ⟨0xFFFFFFFF, 0⟩)) = some ⟨.ok, 0xFFFFFFFF⟩ ∧
    answer (exec (.setfin .encoder 1) State.reset) = some ⟨.eAcc, 0⟩ := ⟨rfl, rfl⟩

theorem test_setftgt_stores_zero :
    exec (.setftgt .host 0) (State.reset.withDiv ⟨7, 9⟩) = .next (respond .ok 0 (State.reset.withDiv ⟨7, 0⟩)) ∧
    answer (exec (.getftgt .host) (State.reset.withDiv ⟨7, 9⟩)) = some ⟨.ok, 9⟩ := ⟨rfl, rfl⟩

theorem test_views :
    answer (exec (.getdivst .host) State.reset) = some ⟨.ok, 3⟩ ∧
    answer (exec (.getdivst .host) (State.reset.withDiv ⟨37999, 38000⟩)) = some ⟨.ok, 5⟩ ∧
    answer (exec (.getdivpsc .host) (State.reset.withDiv ⟨16000000, 1⟩)) = some ⟨.ok, 244⟩ ∧
    answer (exec (.getdivarr .host) (State.reset.withDiv ⟨16000000, 1⟩)) = some ⟨.ok, 65305⟩ := ⟨rfl, rfl, rfl, rfl⟩

/-! ### CAR (95, 2.2) -/

theorem test_surface_reads :
    answer (exec (.getmaxduty .host) built) = some ⟨.ok, 3⟩ ∧ answer (exec (.getduty .encoder) built) = some ⟨.ok, 1⟩ ∧
    answer (exec (.getpsc .host) built) = some ⟨.ok, 0⟩ ∧ answer (exec (.getocen .host) enabled) = some ⟨.ok, 1⟩ :=
  ⟨rfl, rfl, rfl, rfl⟩

theorem test_setduty_drops_high_bits :
    exec (.setduty .host 0x10005) built = .next (respond .ok 0 (built.withCar { built.car with duty := 5 })) ∧
    exec (.setduty .encoder 0x10000) built = .next (respond .ok 0 (built.withCar { built.car with duty := 0 })) :=
  ⟨rfl, rfl⟩

theorem test_enable_disable :
    exec (.enable .host) built = .next (respond .ok 0 enabled) ∧
    exec (.disable .host) enabled = .next (respond .ok 0 built) ∧
    answer (exec (.enable .host) State.reset) = some ⟨.eNotrdy, 0⟩ := ⟨rfl, rfl, rfl⟩

/-- P2, line 9: the counter runs free from `INIT`, the pin stays 0. -/
theorem test_counter_runs_free : edges built.car [0, 1, 2] = [(1, false), (2, false), (3, false)] := by rfl

/-- P2, line 11: the edges of one period, from `CNT = 3`. -/
theorem test_waveform : edges enabled.car [3, 0, 1, 2] = [(0, false), (1, true), (2, false), (3, false)] := by rfl

/-- P2, lines 14 and 15: constantly 1 above the reload count. -/
theorem test_duty_above_reload :
    edges { enabled.car with duty := 4 } [0, 1, 2, 3] = [(1, true), (2, true), (3, true), (0, true)] := by rfl

/-- 41, R127: a prescaler of 1 makes each count last two edges. -/
theorem test_prescaled_count :
    (carClk true { enabled.car with psc := 1 }).cnt = 0 ∧ (carClk true { enabled.car with psc := 1 }).pcnt = 1 ∧
    (carClk true { enabled.car with psc := 1, pcnt := 1 }).cnt = 1 := ⟨rfl, rfl, rfl⟩

/-! ### DRV (95, 2.3) -/

theorem test_init_outcomes :
    statusBits built = 0x361 ∧ built.car = ⟨0, 3, 1, false, 0, 0, true, true, false⟩ ∧
    (construct true (State.reset.withDiv ⟨38000, 38000⟩)).car.duty = 0 ∧
    answer (exec (.init .host) State.reset) = some ⟨.cfgTz, 0⟩ ∧ answer (exec (.init .host) built) = some ⟨.eState, 0⟩ :=
  ⟨rfl, rfl, rfl, rfl, rfl⟩

theorem test_failed_pin_setup :
    statusBits (construct false (State.reset.withDiv ⟨16000000, 38000⟩)) = 0x76 ∧
    (construct false (State.reset.withDiv ⟨16000000, 38000⟩)).car.arr = 420 ∧
    (construct false (State.reset.withDiv ⟨16000000, 38000⟩)).car.duty = 210 := ⟨rfl, rfl, rfl⟩

theorem test_getstatus_getctrl :
    answer (exec (.getstatus .host) sampling) = some ⟨.ok, 0x761⟩ ∧
    answer (exec (.getstatus .host) ctArmed) = some ⟨.ok, 0x1361⟩ ∧
    answer (exec (.getctrl .host) built) = some ⟨.ok, 0⟩ ∧ answer (exec (.getctrl .encoder) built) = some ⟨.eAcc, 0⟩ :=
  ⟨rfl, rfl, rfl, rfl⟩

/-! ### SS (95, 2.4) -/

theorem test_ssstart :
    exec (.ssstart .host) (built.withSs { built.ss with fsmp := 2 }) = .next sampling ∧ sampling.ss.ssarr = 5 ∧
    answer (exec (.ssstart .host) built) = some ⟨.cfgTz, 0⟩ ∧
    answer (exec (.ssstart .host) (built.withSs { built.ss with fsmp := 13 })) = some ⟨.cfgRz, 0⟩ ∧
    answer (exec (.ssstart .host) State.reset) = some ⟨.eNotrdy, 0⟩ := ⟨rfl, rfl, rfl, rfl, rfl⟩

theorem test_sample_reads :
    answer (exec (.getfsmp .host) sampling) = some ⟨.ok, 2⟩ ∧ answer (exec (.getsspsc .host) sampling) = some ⟨.ok, 0⟩ ∧
    answer (exec (.getssarr .host) sampling) = some ⟨.ok, 5⟩ ∧
    exec (.setfsmp .host 9) built = .next (respond .ok 0 (built.withSs { built.ss with fsmp := 9 })) :=
  ⟨rfl, rfl, rfl, rfl⟩

/-- Vector 7: the edge from `SSCNT = 4` raises nothing, the one from `SSCNT = 5` is the overflow event. -/
theorem test_sample_timer_edges :
    ssClk { sampling.ss with sscnt := 4 } = { sampling.ss with sscnt := 5 } ∧
    ssClk { sampling.ss with sscnt := 5 } = { sampling.ss with sscnt := 0, sspend := true } := ⟨rfl, rfl⟩

/-! ### CT (95, 2.5) -/

theorem test_setcmd :
    exec (.setcmd .host 0xFFFFFFFF) built = .next (respond .ok 0 (built.withCt { built.ct with cmdval := 0x1FFFF })) ∧
    answer (exec (.setcmd .host 1) ctArmed) = some ⟨.eState, 0⟩ ∧
    answer (exec (.getcmd .host) ctArmed) = some ⟨.ok, 0x408⟩ := ⟨rfl, rfl, rfl⟩

theorem test_ctarm_getbusycnt :
    exec (.ctarm .host) built = .next (respond .ok 0 (built.withCt { built.ct with cten := true })) ∧
    answer (exec (.ctarm .host) ctArmed) = some ⟨.eState, 0⟩ ∧
    answer (exec (.ctarm .host) State.reset) = some ⟨.eNotrdy, 0⟩ ∧
    answer (exec (.getbusycnt .host) (built.withCt { built.ct with busycnt := 1 })) = some ⟨.ok, 1⟩ :=
  ⟨rfl, rfl, rfl, rfl⟩

/-- Edge detector, entries 1 to 5. -/
theorem test_edge_detector :
    (ctClk false built.ct).ctpend = false ∧ (ctClk false ctArmed.ct).ctpend = true ∧
    (ctClk false ctArmed.ct).btnq = false ∧ (ctClk true ctArmed.ct).ctpend = false ∧
    (ctClk false { ctArmed.ct with btnq := false }).ctpend = false ∧ (ctClk true ctDue.ct).ctpend = true :=
  ⟨rfl, rfl, rfl, rfl, rfl, rfl⟩

/-! ### DSP (95, 2.7) and the encoder contract -/

/-- Priorities for the tests: `p` for the sample timer, `q` for the trigger. -/
def prios (p q : Nat) (src : Source) : Nat := if src = .ss then p else q

/-- Both flags pending. -/
def bothDue : State := ctDue.withSs ssDue.ss

/-- Vectors 2, 3 and 4. -/
theorem test_enter_from_host :
    (enterEnabled (prios 1 1) .ss bothDue && enterEnabled (prios 1 1) .ct bothDue) = true ∧
    enterEnabled (prios 1 2) .ss bothDue = false ∧ enterEnabled (prios 1 2) .ct bothDue = true ∧
    enterEnabled (prios 2 1) .ss bothDue = true ∧ enterEnabled (prios 2 1) .ct bothDue = false := ⟨rfl, rfl, rfl, rfl, rfl⟩

/-- Vectors 5 to 9 and 11. -/
theorem test_enter_nested :
    enterEnabled (prios 1 1) .ct (inPhase bothDue .ss .entered) = false ∧
    enterEnabled (prios 1 2) .ct (inPhase bothDue .ss .entered) = true ∧
    enterEnabled (prios 1 2) .ct (inPhase bothDue .ss .locked) = false ∧
    enterEnabled (prios 1 2) .ct (inPhase bothDue .ss .acked) = true ∧
    enterEnabled (prios 2 1) .ct (inPhase bothDue .ss .returned) = false ∧
    enterEnabled (prios 1 2) .ss (inPhase bothDue .ss .entered) = false := ⟨rfl, rfl, rfl, rfl, rfl, rfl⟩

/-- R199 to R202: the effect of each step on the dispatcher and on the flag of its source. -/
theorem test_sequence_steps :
    (lockStep .ct (inPhase ctDue .ct .entered)).dsp = ⟨[⟨.ct, .locked⟩], true, .load⟩ ∧
    encLoadPort (lockStep .ct (inPhase ctDue .ct .entered)) = some 0x408 ∧
    (returnStep .ct (inPhase ctDue .ct .locked)).dsp = ⟨[⟨.ct, .returned⟩], false, .none⟩ ∧
    (ackStep .ct (inPhase ctDue .ct .returned)).ct.ctpend = false ∧
    (leaveInterrupt (inPhase ctDue .ct .acked)).dsp.stk = [] := ⟨rfl, rfl, rfl, rfl, rfl⟩

/-- R157, R182: the start of the call is driven in the step of `LOCK` alone; the call itself goes on (R199). -/
theorem test_start_is_pulsed (src : Source) :
    ∃ t u, step (withAgenda (inPhase State.reset src .entered) [.dsp .lock src, .clk true]) = .next t ∧ step t = .next u ∧
      encTickPort t = (src == .ss) ∧ encLoadPort t = (if src = .ct then some 0 else none) ∧
      t.dsp.call = callOf src ∧ encTickPort u = false ∧ encLoadPort u = none ∧ u.dsp.call = callOf src := by
  cases src <;> exact ⟨_, _, rfl, rfl, rfl, rfl, rfl, rfl, rfl, rfl⟩

/-- R205: inside a handler `WR ARR` and `RD STATUS` of the encoder are issued, and answered `E_RO` and `E_ACC`; `RD 0x44` and the
misaligned `RD 0x2E` are not issued. -/
theorem test_errors_inside_a_handler :
    [0x32800000001, 0x22000000000, 0x24400000000, 0x22E00000000].map (txnEnabled · (inPhase ctDue .ct .locked)) =
      [true, true, false, false] ∧
    answer (runWord 0x32800000001 (inPhase ctDue .ct .locked)) = some ⟨.eRo, 0⟩ ∧
    answer (runWord 0x22000000000 (inPhase ctDue .ct .locked)) = some ⟨.eAcc, 0⟩ := ⟨rfl, rfl, rfl⟩

/-- R183: the report of an EncoderBusy, and its saturation. -/
theorem test_busy_report :
    (returnStep .ct ((inPhase ctDue .ct .locked).withEnc ⟨.transmitting 1 0, 0x408, some .encoderBusy⟩)).ct.busycnt = 1 ∧
    (returnStep .ct ((inPhase ctDue .ct .locked).withEnc ⟨.transmitting 1 0, 0x408, some .encoderBusy⟩)).ct.busyerr = true ∧
    (returnStep .ct ((inPhase ctDue .ct .locked).withEnc ⟨.idle, 0x408, some .ok⟩)).ct.busyerr = false ∧
    saturatingSucc 0xFFFFFFFF = 0xFFFFFFFF := ⟨rfl, rfl, rfl, rfl⟩

/-- R172, R173, R175 with `len = 3` (the fixture `ENC_T` of 95): three ticks end a transmission, a second load is refused. -/
theorem test_encoder_contract :
    encLoad 0x408 .idle = .transmitting 0x408 0 ∧
    (encTick (fun _ => 3))^[2] (.transmitting 0x408 0) = .transmitting 0x408 2 ∧
    (encTick (fun _ => 3))^[3] (.transmitting 0x408 0) = .idle ∧
    encLoad 1 (.transmitting 0x408 2) = .transmitting 0x408 2 ∧ encTick (fun _ => 3) .idle = .idle :=
  ⟨rfl, rfl, rfl, rfl, rfl⟩

/-! ### The step -/

/-- A placed word is what the next step runs, from reset and from inside a handler sequence. -/
theorem test_placed_word_runs :
    step (State.reset.withFetchWord 48 0x10000F42400) = exec (.setfin .host 16000000) State.reset ∧
    answer (step ((inPhase ctDue .ct .locked).withFetchWord 48 0x03C00000000)) = some ⟨.ok, 0⟩ ∧
    answer (step (built.withFetchWord 48 0x33000000001)) = some ⟨.ok, 0⟩ := ⟨rfl, rfl, rfl⟩

/-- R89, R220: the lines of a program stand for their words, and a reset in the middle brings everything back. -/
theorem test_assembled_program :
    assemble true [.instr .host .SETFIN (some 12), .clk 1 (some false), .clk 1 none, .dsp .ret .ss, .reset] =
      some [.txn 0x1000000000C, .clk false, .clk false, .encReturn, .dsp .ret .ss, .reset] ∧
    step (withAgenda ctDue [.reset]) = .next State.reset := ⟨rfl, rfl⟩

/-! ### Witnesses: concrete states and operands that meet the hypotheses of each statement of that name

A clause whose hypothesis is that `exec` or `step` answers a next state needs no state of its own: every state does
(`EveryStepCompletes`). No witness can exist for one hypothesis, that a word is answered `CFG_PIN` (clause of
`ResponseCodesGiven`): whether it is depends on `Config.pinSetupSupported`, which no proof sees. -/

theorem witness_EncodeOfDecodeIsCanonical :
    decode 0x000DEADBEEF = .ok (.getfin .host) ∧ decode 0x130FFFFFFFF = .ok (.enable .host) := ⟨rfl, rfl⟩

theorem witness_DecoderAgreesWithOpcodeMap :
    decode 0x33000000001 = .ok (.enable .encoder) ∧ decode 0x11C00000004 = .error .cmd := ⟨rfl, rfl⟩

theorem witness_IllegalWordsAreRefused :
    (addrOf 0x00100000000).toNat % 4 ≠ 0 ∧ 0x40 ≤ (addrOf 0x04000000000).toNat ∧ 0x40 ≤ (addrOf 0x1FC00000005).toNat ∧
    (weOf 0x11000000000 = true ∧ addrOf 0x11000000000 = 0x10) ∧ (weOf 0x13C00000000 = true ∧ addrOf 0x13C00000000 = 0x3C) ∧
    (weOf 0x32800000001 = true ∧ addrOf 0x32800000001 = 0x28 ∧ rqOf 0x32800000001 = .encoder) ∧
    (weOf 0x11C00000000 = true ∧ addrOf 0x11C00000000 = 0x1C ∧ wdataOf 0x11C00000000 ∉ [1, 2, 3]) ∧
    (weOf 0x31C00000004 = true ∧ addrOf 0x31C00000004 = 0x1C ∧ wdataOf 0x31C00000004 ∉ [1, 2, 3]) ∧
    (weOf 0x130FFFFFFFF = true ∧ addrOf 0x130FFFFFFFF ∈ [0x00, 0x04, 0x08, 0x0C, 0x2C, 0x30]) := by
  decide

theorem witness_EveryWordIsAnswered :
    weOf 0x12000000001 = true ∧ answer (runWord 0x12000000001 State.reset) = some ⟨.eRo, 0⟩ := ⟨rfl, rfl⟩

theorem witness_ResponseCodesGiven :
    answer (runWord 0x11C00000001 State.reset) = some ⟨.cfgTz, 0⟩ ∧ answer (runWord 0x11C00000002 built) = some ⟨.cfgTz, 0⟩ ∧
    answer (runWord 0x11C00000001 (State.reset.withDiv ⟨37999, 38000⟩)) = some ⟨.cfgRz, 0⟩ ∧
    answer (runWord 0x11C00000002 (built.withSs { built.ss with fsmp := 13 })) = some ⟨.cfgRz, 0⟩ ∧
    answer (runWord 0x04000000000 built) = some ⟨.eAddr, 0⟩ ∧ answer (runWord 0x32800000001 built) = some ⟨.eRo, 0⟩ ∧
    answer (runWord 0x13000000001 State.reset) = some ⟨.eNotrdy, 0⟩ ∧
    answer (runWord 0x11C00000003 State.reset) = some ⟨.eNotrdy, 0⟩ ∧
    answer (runWord 0x11C00000001 built) = some ⟨.eState, 0⟩ ∧ answer (runWord 0x11C00000002 sampling) = some ⟨.eState, 0⟩ ∧
    answer (runWord 0x11C00000003 ctArmed) = some ⟨.eState, 0⟩ ∧ answer (runWord 0x10C00000001 ctArmed) = some ⟨.eState, 0⟩ ∧
    answer (runWord 0x11C00000000 built) = some ⟨.eCmd, 0⟩ ∧ answer (runWord 0x22000000000 built) = some ⟨.eAcc, 0⟩ :=
  ⟨rfl, rfl, rfl, rfl, rfl, rfl, rfl, rfl, rfl, rfl, rfl, rfl, rfl, rfl⟩

theorem witness_StepRunsTheWord :
    (nextEvent (withAgenda built [.txn 0x13000000001]) = .txn 0x13000000001 ∧
      txnEnabled 0x13000000001 (consume (withAgenda built [.txn 0x13000000001])) = true ∧
      decode 0x13000000001 = .ok (.enable .host)) ∧
    (txnEnabled 0x04000000000 (consume (withAgenda built [.txn 0x04000000000])) = true ∧
      decode 0x04000000000 = .error .addr) ∧
    (txnEnabled 0x33000000001 (consume (withAgenda (inPhase ctDue .ct .locked) [.txn 0x33000000001])) = true ∧
      decode 0x33000000001 = .ok (.enable .encoder)) ∧
    State.reset.agenda = [] := ⟨⟨rfl, rfl, rfl⟩, ⟨rfl, rfl⟩, ⟨rfl, rfl⟩, rfl⟩

theorem witness_PlacedWordRunsNext :
    decode (wordOfNat 48 0x33000000001) = .ok (.enable .encoder) ∧ txnEnabled (wordOfNat 48 0x33000000001) built = false ∧
    txnEnabled (wordOfNat 48 0x13000000001) built = true := ⟨rfl, rfl, rfl⟩

theorem witness_AgentsAreHeldBack :
    nextEvent (withAgenda (inPhase ssDue .ss .entered) [.txn 0]) = .txn 0 ∧ rqOf 0 = .host ∧
    (inPhase ssDue .ss .entered).dsp.stk ≠ [] ∧ rqOf 0x33000000001 = .encoder ∧ built.dsp.call = .none ∧
    ((inPhase ctDue .ct .locked).withEnc ⟨.idle, 0, some .ok⟩).enc.ret ≠ none ∧
    ((inPhase ssDue .ss .locked).dsp.call = .tick ∧ (inPhase ssDue .ss .locked).enc.es = .idle) ∧
    (((inPhase ctDue .ct .locked).withEnc ⟨.transmitting 1 0, 0, none⟩).dsp.call = .load ∧
      ((inPhase ctDue .ct .locked).withEnc ⟨.transmitting 1 0, 0, none⟩).enc.es ≠ .idle ∧
      weOf 0x33000000001 = true ∧ addrOf 0x33000000001 ∈ [0x2C, 0x30]) ∧
    (rqOf 0x24400000000 = .encoder ∧ (addrOf 0x24400000000).toNat = 0x44 ∧ (addrOf 0x22E00000000).toNat % 4 ≠ 0) := by
  decide

theorem witness_ReadsAndRepeatedWrites :
    weOf 0x02000000000 = false ∧ mnemonicOf (.setcmd .host 1) ∈ [Mnemonic.SETCMD] ∧
    exec (.setcmd .host 1) built = .next (respond .ok 0 (built.withCt { built.ct with cmdval := 1 })) ∧
    exec (.init .host) built = .next (respond .eState 0 built) ∧
    (exec (.ssstart .host) (built.withSs { built.ss with fsmp := 2 }) = .next sampling ∧ sampling.rsp = some ⟨.ok, 0⟩) ∧
    answer (exec (.ctarm .host) built) = some ⟨.ok, 0⟩ := ⟨rfl, by decide, rfl, rfl, ⟨rfl, rfl⟩, rfl⟩

theorem witness_WrittenValueReadsBack : built.ct.cten = false ∧ built.drv.ready = true := ⟨rfl, rfl⟩

theorem witness_ClockDividerFailsExactly :
    ((0 : Word) = 0 ∧ (38000 : Word) ≠ 0 ∧ (37999 : Word) < 38000) ∧ ((38000 : Word) ≤ 38000) ∧ (1 ≤ 1 ∧ 1 < 2 ^ 32) ∧
    (1 ≤ 4294967295 ∧ 4294967295 < 2 ^ 32) := by
  decide

theorem witness_ClockDividerValues : clockDivider 16000000 38000 = .ok ⟨0, 420⟩ ∧ clockDivider 38000 38000 = .ok ⟨0, 0⟩ :=
  ⟨rfl, rfl⟩

/-- At the bounds of the clauses: ratio 65536, 131072, and 2^32 - 65535. -/
theorem witness_ClockDividerLaws :
    clockDivider 65536 1 = .ok ⟨0, 65535⟩ ∧ clockDivider 131072 1 = .ok ⟨1, 65535⟩ ∧
    clockDivider 4294901761 1 = .ok ⟨65535, 65534⟩ := ⟨rfl, rfl, rfl⟩

theorem witness_DividerViews :
    clockDivider (State.reset.withDiv ⟨16000000, 38000⟩).div.fin (State.reset.withDiv ⟨16000000, 38000⟩).div.ftgt =
      .ok ⟨0, 420⟩ ∧
    clockDivider State.reset.div.fin State.reset.div.ftgt = .error .targetZero := ⟨rfl, rfl⟩

theorem witness_ChannelArmedAndSilenced :
    enabled.drv.ready = true ∧ enabled.car.clken = true ∧ State.reset.drv.ready = false ∧
    exec (.disable .host) enabled = .next (respond .ok 0 built) ∧
    exec (.enable .encoder) built = .next (respond .ok 0 enabled) := ⟨rfl, rfl, rfl, rfl, rfl⟩

theorem witness_SurfaceReads :
    enabled.drv.ready = true ∧ State.reset.drv.ready = false ∧
    nextEvent (withAgenda enabled [.txn 0x12C00000003]) ≠ .reset ∧ (75999 : Word).toNat / (38000 : Word).toNat = 1 := by
  decide

theorem witness_DutyWrite :
    built.drv.ready = true ∧ built.car.clken = true ∧ State.reset.drv.ready = false ∧
    exec (.setduty .host 0x10000) built = .next (respond .ok 0 (built.withCar { built.car with duty := 0 })) :=
  ⟨rfl, rfl, rfl, rfl⟩

theorem witness_CarrierClockEdge :
    nextEvent (withAgenda enabled [.clk true]) = .clk true ∧ State.reset.car.clken = false ∧ enabled.car.clken = true ∧
    enabled.car.cen = true ∧ enabled.car.pcnt = enabled.car.psc ∧
    ({ enabled.car with cen := false } : CarUnit).cen = false ∧
    ({ enabled.car with psc := 1 } : CarUnit).pcnt ≠ ({ enabled.car with psc := 1 } : CarUnit).psc := by
  decide

theorem witness_ClockEdgeFrame : nextEvent (withAgenda sampling [.clk false]) = .clk false := rfl

theorem consistent_built : Consistent built := by
  constructor <;> first | decide | exact fun h => absurd h (by decide)

theorem consistent_armed : Consistent enabled := by
  constructor <;> first | decide | exact fun h => absurd h (by decide)

theorem consistent_enabled (cnt duty : Half) (h : cnt ≤ 3) :
    Consistent (enabled.withCar { enabled.car with cnt := cnt, duty := duty }) :=
  { consistent_armed with cnt_le := h }

theorem consistent_ssDue : Consistent ssDue := by
  constructor <;> first | decide | exact fun h => absurd h (by decide)

theorem consistent_ctDue : Consistent ctDue := by
  constructor <;> first | decide | exact fun h => absurd h (by decide)

theorem consistent_entered : Consistent (inPhase ctDue .ct .entered) := by
  constructor <;> first | decide | exact fun h => absurd h (by decide)

theorem consistent_locked : Consistent (inPhase ctDue .ct .locked) := by
  constructor <;> first | decide | exact fun _ => ⟨.ct, [], rfl⟩

theorem nested_locked : Nested (inPhase ctDue .ct .locked) where
  depth_le := by decide
  upper_more_urgent _ _ h := by cases h
  below_unlocked _ h := by cases h
  top_locked _ _ _ := rfl
  call_of_top _ _ _ h := by cases h; rfl
  ret_in_call h := absurd rfl h
  ticks_below_len _ _ h := by cases h

theorem witness_CarrierWaveform :
    Consistent enabled ∧ enabled.drv.ready = true ∧ enabled.car.ocen = true ∧ carrierPeriod enabled.car = 4 :=
  ⟨consistent_enabled 0 1 (by decide), rfl, rfl, rfl⟩

/-- The last count of the period; the count below the threshold, which stands at its bound `ARR`; and the channel unarmed. -/
theorem witness_CarrierEdges :
    (Consistent (enabled.withCar { enabled.car with cnt := 3, duty := 3 }) ∧ enabled.car.pcnt = enabled.car.psc ∧
      (3 : Half) = enabled.car.arr ∧ 0 < (3 : Half).toNat ∧ (3 : Half).toNat ≤ enabled.car.arr.toNat) ∧
    (Consistent (enabled.withCar { enabled.car with cnt := 2, duty := 3 }) ∧ (2 : Half).toNat + 1 = (3 : Half).toNat) ∧
    (Consistent built ∧ built.drv.ready = true ∧ built.car.ocen = false) :=
  ⟨⟨consistent_enabled 3 3 (by decide), rfl, rfl, by decide, by decide⟩, ⟨consistent_enabled 2 3 (by decide), rfl⟩,
    ⟨consistent_built, rfl, rfl⟩⟩

theorem witness_DutyAboveReload :
    (Consistent (enabled.withCar { enabled.car with cnt := 0, duty := 4 }) ∧ enabled.car.arr < 4) ∧
    (Consistent (enabled.withCar { enabled.car with cnt := 0, duty := 3 }) ∧ 3 ≤ enabled.car.arr) ∧
    enabled.drv.ready = true ∧ enabled.car.ocen = true :=
  ⟨⟨consistent_enabled 0 4 (by decide), by decide⟩, ⟨consistent_enabled 0 3 (by decide), by decide⟩, rfl, rfl⟩

theorem witness_CarrierNeverRetuned :
    Consistent built ∧ built.drv.ready = true ∧ nextEvent (withAgenda built [.txn 0x13000000001]) ≠ .reset ∧
    ∀ b, nextEvent (withAgenda built [.txn 0x13000000001]) ≠ .clk b :=
  ⟨consistent_built, rfl, by decide, fun _ h => by cases h⟩

theorem witness_ConstructionOutcomes :
    (State.reset.drv.ready = false ∧ State.reset.drv.cfgerr = false ∧ State.reset.div.ftgt = 0) ∧
    ((37999 : Word) < 38000 ∧ (38000 : Word) ≠ 0) ∧ (38000 : Word) ≤ 38000 ∧ built.drv.ready = true ∧
    (construct false (State.reset.withDiv ⟨12, 3⟩)).drv.cfgerr = true ∧ Pristine State.reset :=
  ⟨⟨rfl, rfl, rfl⟩, by decide, by decide, rfl, rfl, fun _ _ => ⟨rfl, rfl⟩⟩

theorem witness_ConstructionIsFinal :
    built.drv.ready = true ∧ (construct true State.reset).drv.cfgerr = true ∧
    nextEvent (withAgenda built [.clk true]) ≠ .reset := by
  decide

theorem witness_PeripheralResetIsInvisible :
    Pristine (State.reset.withDiv ⟨12, 3⟩) ∧ State.reset.drv.ready = false ∧ State.reset.drv.cfgerr = false ∧
    Pristine built := ⟨fun _ _ => ⟨rfl, rfl⟩, rfl, rfl, fun h => absurd h (by decide)⟩

theorem witness_SampleTimerStart :
    built.drv.ready = true ∧ built.ss.ssen = false ∧ built.ss.fsmp = 0 ∧ (built.div.fin < 13) ∧ (12 ≤ built.div.fin) ∧
    sampling.ss.ssen = true ∧ State.reset.drv.ready = false := by
  decide

theorem witness_SampleTimerClockEdge :
    nextEvent (withAgenda sampling [.clk true]) = .clk true ∧ built.ss.ssen = false ∧ sampling.ss.ssen = true ∧
    sampling.ss.sspcnt = sampling.ss.sspsc ∧ sampling.ss.sscnt ≠ sampling.ss.ssarr ∧
    ({ sampling.ss with sscnt := 5 } : SsUnit).sscnt = sampling.ss.ssarr ∧ ({ sampling.ss with sspsc := 1 } : SsUnit).sspsc ≠ 0 := by
  decide

/-- `SSSTART` with `FSMP = 6` (`M = 2`): after one edge and a read, the next edge is the second, the overflow event. -/
theorem witness_SamplePeriod :
    ∃ u v, exec (.ssstart .host) (built.withSs { built.ss with fsmp := 6 }) = .next u ∧ u.rsp = some ⟨.ok, 0⟩ ∧
    (Event.reset ∉ [Event.clk true, .txn 0x02000000000]) ∧
    Sys2Proof.core.run 2 (withAgenda u [.clk true, .txn 0x02000000000]) = .next v ∧ samplePeriod u.ss = 2 ∧
    ssOverflows v.ss = true := ⟨_, _, rfl, rfl, by decide, rfl, rfl, rfl⟩

theorem witness_CommandRegister : built.ct.cten = false ∧ ctArmed.ct.cten = true := ⟨rfl, rfl⟩

theorem witness_TriggerArming :
    built.drv.ready = true ∧ built.ct.cten = false ∧ State.reset.drv.ready = false ∧ ctArmed.ct.cten = true ∧
    (clkStep true built).ct.btnq = true ∧ (clkStep true built).drv.ready = true ∧ (clkStep true built).ct.cten = false :=
  ⟨rfl, rfl, rfl, rfl, rfl, rfl, rfl⟩

theorem witness_EdgeDetectorClockEdge :
    nextEvent (withAgenda ctArmed [.clk false]) = .clk false ∧ ctArmed.ct.cten = true ∧ ctArmed.ct.btnq = true ∧
    ¬(built.ct.cten = true ∧ built.ct.btnq = true ∧ false = false) := by
  decide

theorem witness_TransmissionEnds : ∀ c : Command, 1 ≤ (fun _ => 1 : Command → Nat) c ∧ 0 < (fun _ => 1 : Command → Nat) c :=
  fun _ => ⟨Nat.le_refl 1, Nat.zero_lt_one⟩

/-- The return of a `load` from `Idle` changes the encoder's state. -/
theorem witness_EncoderStateChangesInCallsOnly :
    ∃ t, step (withAgenda ((inPhase ctDue .ct .locked).withEnc ⟨.idle, 0x408, none⟩) [.encReturn]) = .next t ∧
      t.enc.es = .transmitting 0x408 0 := ⟨_, rfl, rfl⟩

theorem witness_EnterStep :
    (nextEvent (withAgenda ssDue [.dsp .enter .ss]) = .dsp .enter .ss ∧ pending .ss ssDue = true ∧ ssDue.dsp.stk = [] ∧
      currentPriority Config.prio ssDue.dsp < Config.prio .ss ∧ pending (other .ss) ssDue = false) ∧
    pending .ss sampling = false := ⟨⟨rfl, rfl, rfl, Nat.succ_pos _, rfl⟩, rfl⟩

theorem witness_LockStep :
    nextEvent (withAgenda (inPhase ctDue .ct .entered) [.dsp .lock .ct]) = .dsp .lock .ct ∧
    (inPhase ctDue .ct .entered).dsp.stk = [⟨.ct, .entered⟩] ∧ Consistent (inPhase ctDue .ct .entered) ∧
    (∀ rest, (inPhase ctDue .ct .locked).dsp.stk ≠ ⟨.ct, .entered⟩ :: rest) :=
  ⟨rfl, rfl, consistent_entered, fun _ h => by cases h⟩

theorem witness_ReturnStep :
    nextEvent (withAgenda (inPhase ctDue .ct .locked) [.dsp .ret .ct]) = .dsp .ret .ct ∧
    (inPhase ctDue .ct .locked).dsp.stk = [⟨.ct, .locked⟩] ∧
    ((inPhase ctDue .ct .locked).withEnc ⟨.transmitting 1 0, 0x408, some .encoderBusy⟩).enc.ret = some .encoderBusy ∧
    ((inPhase ctDue .ct .locked).withEnc ⟨.idle, 0x408, some .ok⟩).enc.ret = some .ok ∧
    (inPhase ctDue .ct .locked).enc.ret = none := ⟨rfl, rfl, rfl, rfl, rfl⟩

theorem witness_AckAndExitSteps :
    nextEvent (withAgenda (inPhase ssDue .ss .returned) [.dsp .ack .ss]) = .dsp .ack .ss ∧
    (inPhase ssDue .ss .returned).dsp.stk = [⟨.ss, .returned⟩] ∧ (inPhase ctDue .ct .returned).dsp.stk = [⟨.ct, .returned⟩] ∧
    nextEvent (withAgenda (inPhase ssDue .ss .acked) [.dsp .exit .ss]) = .dsp .exit .ss ∧
    (inPhase ssDue .ss .acked).dsp.stk = [⟨.ss, .acked⟩] ∧
    (∀ rest, (inPhase ssDue .ss .entered).dsp.stk ≠ ⟨.ss, .returned⟩ :: rest) ∧
    (∀ rest, (inPhase ssDue .ss .entered).dsp.stk ≠ ⟨.ss, .acked⟩ :: rest) :=
  ⟨rfl, rfl, rfl, rfl, rfl, (fun _ h => by cases h), (fun _ h => by cases h)⟩

theorem witness_CriticalSectionAdmitsNoInterrupt :
    built.dsp.stk = [] ∧ (inPhase ssDue .ss .locked).dsp.stk ≠ [] ∧ (inPhase ssDue .ss .locked).dsp.lock = true ∧
    (inPhase ssDue .ss .acked).dsp.lock = false := by
  decide

theorem witness_RequestsAndPreemption :
    (∀ src, 1 ≤ prios 1 2 src) ∧ (bothDue.dsp.stk = [] ∧ pending .ss bothDue = true ∧ pending .ct bothDue = true) ∧
    ((inPhase bothDue .ss .returned).dsp.stk = [⟨.ss, .returned⟩] ∧ (inPhase bothDue .ss .returned).dsp.lock = false ∧
      pending (other .ss) (inPhase bothDue .ss .returned) = true) :=
  ⟨fun src => by cases src <;> decide, ⟨rfl, rfl, rfl⟩, ⟨rfl, rfl, rfl⟩⟩

theorem witness_HandlerSequenceRunsToItsEnd :
    (Consistent ssDue ∧ enterEnabled Config.prio .ss ssDue = true) ∧
    (Consistent ctDue ∧ enterEnabled Config.prio .ct ctDue = true ∧ ctDue.enc.es = .idle) ∧
    (ctDue.withEnc ⟨.transmitting 1 0, 0, none⟩).enc.es ≠ .idle := by
  refine ⟨⟨consistent_ssDue, ?_⟩, ⟨consistent_ctDue, ?_, rfl⟩, by decide⟩ <;>
    exact (enterEnabled_iff _ _ _).2 ⟨rfl, by decide, Nat.succ_pos _, fun h => absurd h.1 (by decide)⟩

/-- Each flag is 0 in some state and 1 in some other. -/
theorem witness_FlagsChangeByTheNamedStepsOnly :
    (State.reset.drv.ready = false ∧ built.drv.ready = true) ∧ (built.drv.cfgerr = false ∧
      (construct true State.reset).drv.cfgerr = true) ∧ (State.reset.car.clken = false ∧ built.car.clken = true) ∧
    (State.reset.car.cen = false ∧ built.car.cen = true) ∧ (built.car.ocen = false ∧ enabled.car.ocen = true) ∧
    (enabled.car.out = false ∧ (clkStep true enabled).car.out = true) ∧ (built.ss.ssen = false ∧ sampling.ss.ssen = true) ∧
    (built.ct.cten = false ∧ ctArmed.ct.cten = true) ∧ (pending .ss sampling = false ∧ pending .ss ssDue = true) ∧
    ((inPhase ssDue .ss .entered).dsp.lock = false ∧ (inPhase ssDue .ss .locked).dsp.lock = true) :=
  ⟨⟨rfl, rfl⟩, ⟨rfl, rfl⟩, ⟨rfl, rfl⟩, ⟨rfl, rfl⟩, ⟨rfl, rfl⟩, ⟨rfl, rfl⟩, ⟨rfl, rfl⟩, ⟨rfl, rfl⟩, ⟨rfl, rfl⟩, ⟨rfl, rfl⟩⟩

/-- A step that changes the duty exists. -/
theorem witness_DutyChangesBySetdutyOnly :
    ∃ t, step (withAgenda built [.txn 0x12C00000069]) = .next t ∧ t.car.duty ≠ built.car.duty := ⟨_, rfl, by decide⟩

theorem witness_EncoderReachesTheSurfaceOnly :
    requesterOf (.setduty .encoder 7) = .encoder ∧ requesterOf (.getpsc .encoder) = .encoder ∧
    mnemonicOf (.getpsc .encoder) ∉ [Mnemonic.ENABLE, .DISABLE, .GETOCEN, .GETDUTY, .SETDUTY, .GETMAXDUTY] ∧
    Consistent (withAgenda (inPhase ctDue .ct .locked) [.txn 0x32800000001]) ∧
    ActiveOnlyWhenReady (withAgenda (inPhase ctDue .ct .locked) [.txn 0x32800000001]) ∧ rqOf 0x32800000001 = .encoder ∧
    nextEvent (withAgenda (inPhase ctDue .ct .locked) [.txn 0x32800000001]) = .txn 0x32800000001 ∧
    txnEnabled 0x32800000001 (consume (withAgenda (inPhase ctDue .ct .locked) [.txn 0x32800000001])) = true :=
  ⟨rfl, rfl, by decide, by constructor <;> first | decide | exact fun _ => ⟨.ct, [], rfl⟩, fun _ => rfl, rfl, rfl, rfl⟩

theorem witness_HardwareReset : nextEvent (withAgenda (inPhase ctDue .ct .locked) [.reset, .clk true]) = .reset := rfl

theorem witness_StepKeepsActiveOnlyWhenReady :
    ActiveOnlyWhenReady (inPhase ctDue .ct .locked) ∧ (inPhase ctDue .ct .locked).dsp.stk ≠ [] := ⟨fun _ => rfl, by decide⟩

theorem witness_StepKeepsInvariants :
    Consistent (inPhase ctDue .ct .locked) ∧ Nested (inPhase ctDue .ct .locked) := ⟨consistent_locked, nested_locked⟩

/-! ### A weakly fair run (R10) -/

/-- What the encoder holds once the call of the handler of `src` has returned in an idle encoder. -/
def afterCall (src : Source) : EncState := if src = .ss then .idle else .transmitting 0 0

/-- The encoder's return, the rest of the handler sequence, then `GETFIN` and a clock edge in turn, for ever. -/
def fairEnv (src : Source) (n : Nat) : Event :=
  match n with
  | 0 => .encReturn
  | 1 => .dsp .ret src
  | 2 => .dsp .ack src
  | 3 => .dsp .exit src
  | k + 4 => if k % 2 = 0 then .txn 0 else .clk false

/-- The run that `fairEnv` gives from the critical section of `src`. -/
def fairRun (src : Source) (n : Nat) : State :=
  match n with
  | 0 => inPhase State.reset src .locked
  | 1 => (inPhase State.reset src .locked).withEnc ⟨afterCall src, 0, some .ok⟩
  | 2 => (inPhase State.reset src .returned).withEnc ⟨afterCall src, 0, none⟩
  | 3 => (inPhase State.reset src .acked).withEnc ⟨afterCall src, 0, none⟩
  | k + 4 => { State.reset with
      enc := ⟨afterCall src, 0, none⟩, rsp := if k % 2 = 0 then none else some ⟨.ok, 0⟩ }

theorem fairRun_run (src : Source) : Run (fairEnv src) (fairRun src)
  | 0 => by cases src <;> rfl
  | 1 => by cases src <;> rfl
  | 2 => by cases src <;> rfl
  | 3 => by cases src <;> rfl
  | k + 4 => by
    rcases Nat.mod_two_eq_zero_or_one k with h | h
    · have h' : (k + 1) % 2 = 1 := by omega
      simp only [fairEnv, fairRun, h, h', if_true]
      rfl
    · have h' : (k + 1) % 2 = 0 := by omega
      simp only [fairEnv, fairRun, h, h', if_true]
      rfl

/-- From the fifth moment on neither the dispatcher nor the encoder has a step to take; the host and the clock take theirs in
turn. -/
theorem fairRun_fair (src : Source) : WeaklyFair (fairEnv src) (fairRun src) where
  clock n _ := ⟨2 * n + 5, by omega, ⟨false, by simp [fairEnv, show (2 * n + 1) % 2 = 1 by omega]⟩, by
    simp [fairEnv, show (2 * n + 1) % 2 = 1 by omega, eventEnabled]⟩
  host n _ := ⟨2 * n + 4, by omega, ⟨0, by simp [fairEnv], rfl⟩, by simp [fairEnv]; rfl⟩
  encoder n h := by
    obtain ⟨e, rfl, he⟩ := h (n + 4) (by omega)
    exact absurd he Bool.false_ne_true
  dispatcher k s n h := by
    obtain ⟨e, rfl, he⟩ := h (n + 4) (by omega)
    exact absurd he (by cases k <;> cases s <;> exact Bool.false_ne_true)

theorem consistent_reset_locked (src : Source) : Consistent (inPhase State.reset src .locked) := by
  cases src <;> constructor <;> first | decide | exact fun _ => ⟨_, _, rfl⟩

theorem nested_reset_locked (src : Source) : Nested (inPhase State.reset src .locked) where
  depth_le := Nat.le_succ 1
  upper_more_urgent _ _ h := by cases h
  below_unlocked _ h := by cases h
  top_locked _ _ _ := rfl
  call_of_top _ _ _ h := by cases h; rfl
  ret_in_call h := absurd rfl h
  ticks_below_len _ _ h := by cases h

theorem witness_HeldLockIsReleased (src : Source) :
    Run (fairEnv src) (fairRun src) ∧ Consistent (fairRun src 0) ∧ WeaklyFair (fairEnv src) (fairRun src) ∧
    (fairRun src 0).dsp.lock = true :=
  ⟨fairRun_run src, consistent_reset_locked src, fairRun_fair src, rfl⟩

/-- Whatever the priorities are, the other source is not more urgent than one of the two. -/
theorem witness_UrgentSequenceIsLeft : ∃ src,
    Run (fairEnv src) (fairRun src) ∧ Consistent (fairRun src 0) ∧ Nested (fairRun src 0) ∧
    WeaklyFair (fairEnv src) (fairRun src) ∧ Config.prio (other src) ≤ Config.prio src ∧
    (fairRun src 0).dsp.stk = [⟨src, .locked⟩] := by
  obtain ⟨src, h⟩ : ∃ src, Config.prio (other src) ≤ Config.prio src :=
    (Nat.le_total (Config.prio .ct) (Config.prio .ss)).elim (⟨.ss, ·⟩) (⟨.ct, ·⟩)
  exact ⟨src, fairRun_run src, consistent_reset_locked src, nested_reset_locked src, fairRun_fair src, h, rfl⟩

end Sys2Proof.Tests
end

