-- ==== Sys2Proof/Proofs/State.lean ====
section
/-! PROOFS. The state: the views `DIVPSC`, `DIVARR`, `DIVST` of the calculator, and the hardware reset. -/

namespace Sys2Proof.Machine

/-! ### Reads at the port -/

/-- A response is written on the port `rsp` and nowhere else (R7). -/
theorem respond_eq (c : RespCode) (v : Word) (s : State) : respond c v s = { s with rsp := some ⟨c, v⟩ } := rfl

/-- Every word that reads the address of a register is that register's read, whatever its `WDATA` (R80, R85 step 3). -/
theorem decode_read (r : Reg) (rq : Requester) (w : Word) :
    decode (txnWord rq 0#1 (regAddr r) w) = .ok (readInstr r rq) := by
  simp [decode_txnWord, decodeFields]

/-! ### The views of the calculator (R29) -/

theorem exec_getdivpsc (rq : Requester) (s : State) :
    exec (.getdivpsc rq) s = .next (hostRead rq (divPscView s.div) s) := rfl

theorem exec_getdivarr (rq : Requester) (s : State) :
    exec (.getdivarr rq) s = .next (hostRead rq (divArrView s.div) s) := rfl

theorem exec_getdivst (rq : Requester) (s : State) :
    exec (.getdivst rq) s = .next (hostRead rq (divStView s.div) s) := rfl

/-- What the views show when the calculator succeeds. -/
theorem divViews_of_ok {u : DivUnit} {d : DividerConfig} (h : clockDivider u.fin u.ftgt = .ok d) :
    divPscView u = d.prescaler.setWidth 32 ∧ divArrView u = d.reloadCount.setWidth 32 ∧ divStView u = 0 := by
  simp [divPscView, divArrView, divStView, zext16, h]

/-- What the views show when the calculator fails. -/
theorem divViews_of_error {u : DivUnit} {c : CfgCause} (h : clockDivider u.fin u.ftgt = .error c) :
    divPscView u = 0 ∧ divArrView u = 0 ∧ divStView u = ((causeBits c).setWidth 32 <<< 1) ||| 1 := by
  simp [divPscView, divArrView, divStView, h]

/-- Causes 3 and 4 are never given (R104), so `DIVST` shows success, cause 1 or cause 2. -/
theorem divStView_mem (u : DivUnit) : divStView u ∈ [(0 : Word), 3, 5] := by
  rcases clockDivider_cases u.fin u.ftgt with ⟨-, h⟩ | ⟨-, -, h⟩ | ⟨-, -, h⟩
  · obtain ⟨-, -, hst⟩ := divViews_of_error h
    rw [hst]; decide
  · obtain ⟨-, -, hst⟩ := divViews_of_error h
    rw [hst]; decide
  · obtain ⟨-, -, hst⟩ := divViews_of_ok h
    simp [hst]

/-- The host's reads show the views, whatever the calculator answers. -/
theorem exec_host_divReads (s : State) :
    exec (.getdivpsc .host) s = .next { s with rsp := some ⟨.ok, divPscView s.div⟩ } ∧
    exec (.getdivarr .host) s = .next { s with rsp := some ⟨.ok, divArrView s.div⟩ } ∧
    exec (.getdivst .host) s = .next { s with rsp := some ⟨.ok, divStView s.div⟩ } := by
  simp only [exec_getdivpsc, exec_getdivarr, exec_getdivst, hostRead_host, respond_eq, and_self]

/-- The encoder may not reach the views (R73). -/
theorem exec_encoder_divReads (s : State) :
    exec (.getdivpsc .encoder) s = .next { s with rsp := some ⟨.eAcc, 0⟩ } ∧
    exec (.getdivarr .encoder) s = .next { s with rsp := some ⟨.eAcc, 0⟩ } ∧
    exec (.getdivst .encoder) s = .next { s with rsp := some ⟨.eAcc, 0⟩ } := by
  simp only [exec_getdivpsc, exec_getdivarr, exec_getdivst, hostRead_encoder, respond_eq, and_self]

theorem exec_host_divReads_of_ok {s : State} {d : DividerConfig} (h : clockDivider s.div.fin s.div.ftgt = .ok d) :
    exec (.getdivpsc .host) s = .next { s with rsp := some ⟨.ok, d.prescaler.setWidth 32⟩ } ∧
    exec (.getdivarr .host) s = .next { s with rsp := some ⟨.ok, d.reloadCount.setWidth 32⟩ } ∧
    exec (.getdivst .host) s = .next { s with rsp := some ⟨.ok, 0⟩ } := by
  obtain ⟨hpsc, harr, hst⟩ := divViews_of_ok h
  rw [← hpsc, ← harr, ← hst]
  exact exec_host_divReads s

theorem exec_host_divReads_of_error {s : State} {c : CfgCause} (h : clockDivider s.div.fin s.div.ftgt = .error c) :
    exec (.getdivpsc .host) s = .next { s with rsp := some ⟨.ok, 0⟩ } ∧
    exec (.getdivarr .host) s = .next { s with rsp := some ⟨.ok, 0⟩ } ∧
    exec (.getdivst .host) s = .next { s with rsp := some ⟨.ok, ((causeBits c).setWidth 32 <<< 1) ||| 1⟩ } := by
  obtain ⟨hpsc, harr, hst⟩ := divViews_of_error h
  have hreads := exec_host_divReads s
  rwa [hpsc, harr, hst] at hreads

/-- Settles O21: the reads show the views, the views follow the calculator, and the reset operands fail with cause 1. -/
theorem dividerViews : Obligations.DividerViews := by
  have hreset : clockDivider State.reset.div.fin State.reset.div.ftgt = .error .targetZero := rfl
  refine ⟨fun s => ?_, exec_host_divReads_of_error hreset, fun rq w => ?_⟩
  · obtain ⟨-, -, hst⟩ := exec_host_divReads s
    exact ⟨fun d h => exec_host_divReads_of_ok h, fun c h => exec_host_divReads_of_error h,
      ⟨divStView s.div, divStView_mem s.div, hst⟩, exec_encoder_divReads s⟩
  · exact ⟨decode_read .divpsc rq w, decode_read .divarr rq w, decode_read .divst rq w⟩

/-! ### The hardware reset (R50, R220) -/

/-- Every element of the block and the encoder's `ES` has its reset value (R50). -/
def HasResetValues (t : State) : Prop :=
  t.div = ⟨0, 0⟩ ∧ t.car = ⟨0, 0, 0, false, 0, 0, false, false, false⟩ ∧ t.drv = ⟨false, false, false, false, 0⟩ ∧
  t.ss = ⟨0, 0, 0, 0, 0, false, false⟩ ∧ t.ct = ⟨0, false, false, false, false, 0⟩ ∧ t.dsp = ⟨[], false, .none⟩ ∧
  t.enc.es = .idle

theorem hasResetValues_reset : HasResetValues State.reset := ⟨rfl, rfl, rfl, rfl, rfl, rfl, rfl⟩

/-- The effect of `RESET` agrees with `State.reset` on every unit, whatever the state before it was. -/
theorem hasResetValues_resetStep (s : State) : HasResetValues (resetStep s) := by
  simpa only [HasResetValues, resetStep_div, resetStep_car, resetStep_drv, resetStep_ss, resetStep_ct, resetStep_dsp,
    resetStep_enc] using hasResetValues_reset

/-- Each output line follows one flag of the state, and every flag resets to 0. -/
theorem HasResetValues.lines_low {t : State} (h : HasResetValues t) :
    irOut t = false ∧ modEn t = false ∧ ssIrq t = false ∧ ctIrq t = false := by
  obtain ⟨-, hcar, hdrv, hss, hct, -, -⟩ := h
  simp [irOut, modEn, ssIrq, ctIrq, pending, hcar, hdrv, hss, hct]

/-- `RESET` is never disabled: when it is attempted it is taken (R220). -/
theorem step_of_reset {s : State} (h : nextEvent s = .reset) : step s = .next (resetStep (consume s)) := by
  rw [step_eq, h]; rfl

/-- Settles O54: the step taken is `resetStep`, which gives the reset values in every state. -/
theorem hardwareReset : Obligations.HardwareReset := by
  refine ⟨fun s h => ⟨resetStep (consume s), step_of_reset h, ?_⟩, hasResetValues_reset⟩
  have hvalues := hasResetValues_resetStep (consume s)
  have hlines := hvalues.lines_low
  obtain ⟨hdiv, hcar, hdrv, hss, hct, hdsp, hes⟩ := hvalues
  exact ⟨hdiv, hcar, hdrv, hss, hct, hdsp, hes, hlines⟩

end Sys2Proof.Machine
end

/-! PROOFS. Words on the port: the decoder case by case, its agreement with the opcode map, what an illegal word is
answered, and the response every word gets. -/

namespace Sys2Proof

/-! ### The decoder, one equation per branch (R85) -/

theorem decode_of_unmapped {t : TxnWord} (h : regAt (addrOf t) = none) : decode t = .error .addr := by
  simp only [decode, decodeFields, h]

theorem decode_of_read {t : TxnWord} {r : Reg} (hr : regAt (addrOf t) = some r) (hw : weOf t = false) :
    decode t = .ok (readInstr r (rqOf t)) := by
  simp [decode, decodeFields, hr, hw]

theorem decode_of_write_ok {t : TxnWord} {r : Reg} {i : Instr} (hr : regAt (addrOf t) = some r) (hw : weOf t = true)
    (hi : writeInstr r (rqOf t) (wdataOf t) = .ok i) : decode t = .ok i := by
  simp only [decode, decodeFields, hr, hw, hi, if_true]

theorem decode_of_write_error {t : TxnWord} {r : Reg} {e : DecodeError} (hr : regAt (addrOf t) = some r)
    (hw : weOf t = true) (he : writeInstr r (rqOf t) (wdataOf t) = .error e) :
    decode t = .error (refusal r (rqOf t) e) := by
  simp only [decode, decodeFields, hr, hw, he, if_true]

/-- The four ways the decoder ends. -/
theorem decode_cases (t : TxnWord) :
    (regAt (addrOf t) = none ∧ decode t = .error .addr) ∨
    ∃ r, regAt (addrOf t) = some r ∧
      ((weOf t = false ∧ decode t = .ok (readInstr r (rqOf t))) ∨
       (weOf t = true ∧ ∃ i, writeInstr r (rqOf t) (wdataOf t) = .ok i ∧ decode t = .ok i) ∨
       (weOf t = true ∧ ∃ e, writeInstr r (rqOf t) (wdataOf t) = .error e ∧
         decode t = .error (refusal r (rqOf t) e))) := by
  cases hr : regAt (addrOf t) with
  | none => exact .inl ⟨rfl, decode_of_unmapped hr⟩
  | some r =>
    refine .inr ⟨r, rfl, ?_⟩
    cases hw : weOf t with
    | false => exact .inl ⟨rfl, decode_of_read hr hw⟩
    | true =>
      cases hi : writeInstr r (rqOf t) (wdataOf t) with
      | ok i => exact .inr (.inl ⟨rfl, i, rfl, decode_of_write_ok hr hw hi⟩)
      | error e => exact .inr (.inr ⟨rfl, e, rfl, decode_of_write_error hr hw hi⟩)

/-! ### The fields of a masked word -/

theorem rqOf_and_of_host {u : TxnWord} (h : rqOf u = .host) (t : TxnWord) : rqOf (t &&& u) = .host := by
  simp_all [rqOf]

@[simp] theorem weOf_and (t u : TxnWord) : weOf (t &&& u) = (weOf t && weOf u) := BitVec.getLsbD_and

@[simp] theorem addrOf_and (t u : TxnWord) : addrOf (t &&& u) = addrOf t &&& addrOf u := BitVec.extractLsb'_and

@[simp] theorem wdataOf_and (t u : TxnWord) : wdataOf (t &&& u) = wdataOf t &&& wdataOf u := BitVec.extractLsb'_and

/-! ### The opcode map, field by field (R84) -/

/-- No row looks at bit 41; every row looks at the whole of `WE` and `ADDR`. -/
theorem opRows_fields : ∀ r ∈ opRows,
    rqOf r.mask = .host ∧ rqOf r.pattern = .host ∧ weOf r.mask = true ∧ addrOf r.mask = 0xFF#8 := by
  decide

/-- Matching a row is having its direction and address, and its data under the mask. -/
theorem matches_row_iff {r : OpRow} (hr : r ∈ opRows) (t : TxnWord) :
    t &&& r.mask = r.pattern ↔
      (weOf r.pattern = weOf t ∧ addrOf r.pattern = addrOf t) ∧ wdataOf t &&& wdataOf r.mask = wdataOf r.pattern := by
  obtain ⟨hrqm, hrqp, hwe, haddr⟩ := opRows_fields r hr
  have hall : addrOf t &&& 0xFF#8 = addrOf t := BitVec.and_allOnes
  constructor
  · intro h
    rw [← h, weOf_and, addrOf_and, wdataOf_and, hwe, haddr, hall, Bool.and_true]
    exact ⟨⟨rfl, rfl⟩, rfl⟩
  · rintro ⟨⟨hw, ha⟩, hd⟩
    apply eq_of_fields
    · rw [rqOf_and_of_host hrqm, hrqp]
    · rw [weOf_and, hwe, Bool.and_true, hw]
    · rw [addrOf_and, haddr, hall, ha]
    · rw [wdataOf_and, hd]

/-- The rows of one direction at one address. -/
def rowsAt (we : Bool) (a : Addr) : List OpRow :=
  opRows.filter (fun r => weOf r.pattern == we && addrOf r.pattern == a)

/-- The mnemonics of those rows that match the data of a word. -/
def rowsMatchingData (w : Word) (rows : List OpRow) : List Mnemonic :=
  (rows.filter (fun r => w &&& wdataOf r.mask == wdataOf r.pattern)).map (·.mnemonic)

/-- The matching rows are found by direction and address first, then by data. -/
theorem matchingRows_eq (t : TxnWord) :
    matchingRows t = rowsMatchingData (wdataOf t) (rowsAt (weOf t) (addrOf t)) := by
  unfold matchingRows rowsMatchingData rowsAt
  rw [List.filter_filter]
  congr 1
  refine List.filter_congr fun r hr => ?_
  rw [Bool.eq_iff_iff]
  simp only [Bool.and_eq_true, beq_iff_eq]
  rw [matches_row_iff hr, and_comm]

/-- Every row stands at a mapped address. -/
theorem opRows_mapped : ∀ r ∈ opRows, regAt (addrOf r.pattern) ≠ none := by
  decide

theorem rowsAt_of_unmapped {a : Addr} (h : regAt a = none) (we : Bool) : rowsAt we a = [] := by
  rw [rowsAt, List.filter_eq_nil_iff]
  intro r hr hmatch
  simp only [Bool.and_eq_true, beq_iff_eq] at hmatch
  obtain ⟨-, haddr⟩ := hmatch
  exact opRows_mapped r hr (haddr ▸ h)

/-- The mnemonics the opcode map should give for what the decoder answers. -/
def decodedRows (d : Except DecodeError Instr) : List Mnemonic :=
  match d with
  | .ok i => [mnemonicOf i]
  | .error _ => []

/-- The row of one direction at one address that looks at the data bits of `dmask` alone. -/
def dataRow (m : Mnemonic) (we : BitVec 1) (a : Addr) (dmask data : Word) : OpRow :=
  ⟨m, txnWord .host we a data, txnWord .host 1#1 0xFF#8 dmask⟩

theorem rowsMatchingData_nil (w : Word) : rowsMatchingData w [] = [] := rfl

theorem rowsMatchingData_cons (w : Word) (m : Mnemonic) (we : BitVec 1) (a : Addr) (dmask data : Word)
    (rows : List OpRow) :
    rowsMatchingData w (dataRow m we a dmask data :: rows) =
      if w &&& dmask = data then m :: rowsMatchingData w rows else rowsMatchingData w rows := by
  by_cases h : w &&& dmask = data <;> simp [rowsMatchingData, dataRow, h]

/-- A row that looks at no data bit matches every data. -/
theorem rowsMatchingData_unmasked (w : Word) (m : Mnemonic) (we : BitVec 1) (a : Addr) :
    rowsMatchingData w [dataRow m we a 0 0] = [m] := by
  simp [rowsMatchingData_cons, rowsMatchingData_nil]

/-- A register has one read row, which looks at no data bit. -/
theorem rows_of_read (r : Reg) (rq : Requester) (w : Word) :
    rowsMatchingData w (rowsAt false (regAddr r)) = [mnemonicOf (readInstr r rq)] := by
  have hrow : rowsAt false (regAddr r) = [dataRow (mnemonicOf (readInstr r rq)) 0#1 (regAddr r) 0 0] := by
    cases r <;> rfl
  rw [hrow, rowsMatchingData_unmasked]

/-- The three rows of `CTRL` look at the whole data, as `ctrlInstr` does (R30). -/
theorem rows_of_ctrl (rq : Requester) (w : Word) :
    rowsMatchingData w (rowsAt true (regAddr .ctrl)) = decodedRows (ctrlInstr rq w) := by
  have hrows : rowsAt true (regAddr .ctrl) =
      [dataRow .INIT 1#1 0x1C (BitVec.allOnes 32) 1, dataRow .SSSTART 1#1 0x1C (BitVec.allOnes 32) 2,
        dataRow .CTARM 1#1 0x1C (BitVec.allOnes 32) 3] := rfl
  simp only [hrows, rowsMatchingData_cons, rowsMatchingData_nil, BitVec.and_allOnes]
  rcases ctrlInstr_cases rq w with ⟨rfl, h⟩ | ⟨rfl, h⟩ | ⟨rfl, h⟩ | ⟨h1, h2, h3, h⟩
  · rw [h]; rfl
  · rw [h]; rfl
  · rw [h]; rfl
  · rw [h, if_neg h1, if_neg h2, if_neg h3]; rfl

/-- The two rows of `OCEN` look at bit 0 alone (R81). -/
theorem rows_of_ocen (rq : Requester) (w : Word) :
    rowsMatchingData w (rowsAt true (regAddr .ocen)) = decodedRows (writeInstr .ocen rq w) := by
  have hrows : rowsAt true (regAddr .ocen) = [dataRow .ENABLE 1#1 0x30 1 1, dataRow .DISABLE 1#1 0x30 1 0] := rfl
  have hbit : w &&& 1 = (BitVec.ofBool (w.getLsbD 0)).setWidth 32 := BitVec.and_one_eq_setWidth_ofBool_getLsbD
  simp only [hrows, rowsMatchingData_cons, rowsMatchingData_nil, hbit, writeInstr]
  cases w.getLsbD 0 <;> rfl

/-- The write rows of a register match the data that its write decodes, and name the same instruction. -/
theorem rows_of_write (r : Reg) (rq : Requester) (w : Word) :
    rowsMatchingData w (rowsAt true (regAddr r)) = decodedRows (writeInstr r rq w) := by
  cases r with
  | ctrl => exact rows_of_ctrl rq w
  | ocen => exact rows_of_ocen rq w
  | fin => exact rowsMatchingData_unmasked w .SETFIN 1#1 0x00
  | ftgt => exact rowsMatchingData_unmasked w .SETFTGT 1#1 0x04
  | fsmp => exact rowsMatchingData_unmasked w .SETFSMP 1#1 0x08
  | cmdval => exact rowsMatchingData_unmasked w .SETCMD 1#1 0x0C
  | duty => exact rowsMatchingData_unmasked w .SETDUTY 1#1 0x2C
  | _ => rfl

/-- The rows a word matches are the row of what it decodes to, and none when it is refused. -/
theorem matchingRows_eq_decodedRows (t : TxnWord) : matchingRows t = decodedRows (decode t) := by
  rw [matchingRows_eq]
  rcases decode_cases t with ⟨hr, h⟩ | ⟨r, hr, ⟨hw, h⟩ | ⟨hw, i, hi, h⟩ | ⟨hw, e, he, h⟩⟩
  · rw [h, rowsAt_of_unmapped hr]; rfl
  all_goals rw [h, hw, ← regAddr_of_regAt _ _ hr]
  · exact rows_of_read r (rqOf t) (wdataOf t)
  · rw [rows_of_write r (rqOf t), hi]
  · rw [rows_of_write r (rqOf t), he]; rfl

/-- Settles O3: the matching rows are a function of what the decoder answers. -/
theorem decoderAgreesWithOpcodeMap : Obligations.DecoderAgreesWithOpcodeMap := by
  refine ⟨rfl, by decide, by decide, fun t i h => ?_, fun t e h => ?_⟩
  · rw [matchingRows_eq_decodedRows, h]; rfl
  · rw [matchingRows_eq_decodedRows, h]; rfl

end Sys2Proof

namespace Sys2Proof.Machine

/-! ### Illegal words (R86) -/

theorem runWord_of_decode_ok {t : TxnWord} {i : Instr} (h : decode t = .ok i) (s : State) : runWord t s = exec i s := by
  simp only [runWord, h]

theorem runWord_of_decode_error {t : TxnWord} {e : DecodeError} (h : decode t = .error e) (s : State) :
    runWord t s = .next { s with rsp := some ⟨refusalCode e, 0⟩ } := by
  simp only [runWord, h, respond_eq]

/-- A write that its register refuses is answered with the refusal's code, or with `E_ACC` from the encoder off the PWM
surface (C10). -/
theorem runWord_of_refused_write {t : TxnWord} {r : Reg} {e : DecodeError} (hr : regAt (addrOf t) = some r)
    (hw : weOf t = true) (he : writeInstr r (rqOf t) (wdataOf t) = .error e) (s : State) :
    runWord t s = .next
      { s with rsp := some ⟨if rqOf t = .encoder ∧ inPwmSurface r = false then .eAcc else refusalCode e, 0⟩ } := by
  rw [runWord_of_decode_error (decode_of_write_error hr hw he)]
  unfold refusal
  split <;> rfl

/-- The nine addresses that are read only; `ARR` is the one of them on the PWM surface. -/
theorem readOnly_register {a : Addr} (h : a ∈ [0x10, 0x14, 0x18, 0x20, 0x24, 0x28, 0x34, 0x38, 0x3C]) :
    ∃ r, regAt a = some r ∧ (inPwmSurface r = false ↔ a ≠ 0x28) ∧ ∀ rq w, writeInstr r rq w = .error .ro := by
  simp only [List.mem_cons, List.not_mem_nil, or_false] at h
  rcases h with rfl | rfl | rfl | rfl | rfl | rfl | rfl | rfl | rfl <;>
    exact ⟨_, rfl, by decide, fun _ _ => rfl⟩

/-- The six addresses whose register takes every data. -/
theorem writable_register {a : Addr} (h : a ∈ [0x00, 0x04, 0x08, 0x0C, 0x2C, 0x30]) :
    ∃ r, regAt a = some r ∧ ∀ rq w, ∃ i, writeInstr r rq w = .ok i := by
  simp only [List.mem_cons, List.not_mem_nil, or_false] at h
  rcases h with rfl | rfl | rfl | rfl | rfl | rfl <;> exact ⟨_, rfl, fun _ _ => ⟨_, rfl⟩⟩

theorem ctrlInstr_of_reserved {w : Word} (h : w ∉ [1, 2, 3]) (rq : Requester) : ctrlInstr rq w = .error .cmd := by
  simp only [List.mem_cons, List.not_mem_nil, or_false, not_or] at h
  obtain ⟨h1, h2, h3⟩ := h
  simp only [ctrlInstr, h1, h2, h3, if_false]

/-! ### Data bits above the implemented width (R63, R83) -/

theorem narrowCommand_mask (w : Word) : narrowCommand (w &&& 0x1FFFF) = narrowCommand w := by
  rw [narrowCommand, BitVec.extractLsb'_and]
  exact BitVec.and_allOnes

theorem narrowDuty_mask (w : Word) : narrowDuty (w &&& 0xFFFF) = narrowDuty w := by
  rw [narrowDuty, BitVec.extractLsb'_and]
  exact BitVec.and_allOnes

theorem exec_setcmd_mask (rq : Requester) (w : Word) (s : State) :
    exec (.setcmd rq w) s = exec (.setcmd rq (w &&& 0x1FFFF)) s := by
  simp only [exec, execSetcmd, narrowCommand_mask]

theorem exec_setduty_mask (rq : Requester) (w : Word) (s : State) :
    exec (.setduty rq w) s = exec (.setduty rq (w &&& 0xFFFF)) s := by
  simp only [exec, execSetduty, narrowDuty_mask]

/-- Bit 0 alone chooses between `ENABLE` and `DISABLE`. -/
theorem decode_ocen_mask (rq : Requester) (w : Word) :
    decode (txnWord rq 1#1 0x30 w) = decode (txnWord rq 1#1 0x30 (w &&& 1)) := by
  have hbit : (w &&& 1).getLsbD 0 = w.getLsbD 0 := by simp
  have hreg : regAt 0x30 = some .ocen := rfl
  simp only [decode_txnWord, decodeFields, hreg, writeInstr, hbit]

/-- Settles O4: each illegal word is refused by the branch of the decoder that its address and data select. -/
theorem illegalWordsAreRefused : Obligations.IllegalWordsAreRefused := by
  intro t s
  refine ⟨fun h => ?_, fun hw h => ?_, fun hw ha hd => ?_, fun hw h => ?_, fun rq w => ?_⟩
  · exact runWord_of_decode_error (decode_of_unmapped ((regAt_eq_none_iff _).2 h)) s
  · obtain ⟨r, hr, hsurface, hro⟩ := readOnly_register h
    rw [runWord_of_refused_write hr hw (hro _ _)]
    simp only [hsurface, refusalCode]
  · have hr : regAt (addrOf t) = some .ctrl := by rw [ha]; rfl
    have hoff : inPwmSurface .ctrl = false := rfl
    rw [runWord_of_refused_write hr hw (ctrlInstr_of_reserved hd _)]
    simp only [hoff, and_true, refusalCode]
  · obtain ⟨r, hr, hok⟩ := writable_register h
    obtain ⟨i, hi⟩ := hok (rqOf t) (wdataOf t)
    exact ⟨i, decode_of_write_ok hr hw hi⟩
  · exact ⟨exec_setcmd_mask rq w s, exec_setduty_mask rq w s, decode_ocen_mask rq w⟩

/-! ### The response of every word (R82) -/

/-- A response stands on `rsp`; its data is 0 unless it answers a read (`we` is 0) with `OK`. -/
def Answered (we : Bool) (s : State) : Prop :=
  ∃ p, s.rsp = some p ∧ (we = true → p.rdata = 0) ∧ (p.code ≠ .ok → p.rdata = 0)

/-- An answer with data 0 is one of any transaction. -/
theorem answered_respond_zero (we : Bool) (c : RespCode) (s : State) : Answered we (respond c 0 s) :=
  ⟨_, rfl, fun _ => rfl, fun _ => rfl⟩

/-- An answer with data is one of a read that is performed. -/
theorem answered_respond_ok (v : Word) (s : State) : Answered false (respond .ok v s) :=
  ⟨_, rfl, fun h => absurd h (by decide), fun h => absurd rfl h⟩

/-- A check that fails answers data 0, so only the rest has to be looked at. -/
theorem Answered.require {we : Bool} {r : State} (h : Answered we r) (b : Bool) (c : RespCode) (s : State) :
    Answered we (require b c s r) := by
  cases b
  · exact answered_respond_zero we c s
  · exact h

theorem Answered.requireHost {we : Bool} {r : State} (h : Answered we r) (rq : Requester) (s : State) :
    Answered we (requireHost rq s r) := h.require _ _ s

theorem Answered.requireReady {we : Bool} {r : State} (h : Answered we r) (s : State) :
    Answered we (requireReady s r) := h.require _ _ s

theorem answered_hostRead (rq : Requester) (v : Word) (s : State) : Answered false (hostRead rq v s) :=
  (answered_respond_ok v s).requireHost rq s

theorem answered_surfaceRead (v : Word) (s : State) : Answered false (surfaceRead v s) :=
  (answered_respond_ok v s).requireReady s

theorem answered_construct (b we : Bool) (s : State) : Answered we (construct b s) := by
  rcases construct_cases b s with ⟨c, -, h⟩ | ⟨d, -, -, h⟩ | ⟨d, -, -, h⟩ <;> rw [h] <;>
    exact answered_respond_zero we _ _

theorem answered_startSampling (we : Bool) (s : State) : Answered we (startSampling s) := by
  rcases startSampling_cases s with ⟨c, -, h⟩ | ⟨d, -, h⟩ <;> rw [h] <;> exact answered_respond_zero we _ _

/-- A read outside the PWM surface is a `hostRead`, one of the surface a `surfaceRead`. -/
theorem exec_readInstr (r : Reg) (rq : Requester) (s : State) :
    (inPwmSurface r = false ∧ ∃ v, exec (readInstr r rq) s = .next (hostRead rq v s)) ∨
    (inPwmSurface r = true ∧ ∃ v, exec (readInstr r rq) s = .next (surfaceRead v s)) := by
  cases r with
  | arr => exact .inr ⟨rfl, _, rfl⟩
  | duty => exact .inr ⟨rfl, _, rfl⟩
  | ocen => exact .inr ⟨rfl, _, rfl⟩
  | _ => exact .inl ⟨rfl, _, rfl⟩

theorem exec_read_answered (r : Reg) (rq : Requester) (s : State) :
    ∃ u, exec (readInstr r rq) s = .next u ∧ Answered false u := by
  rcases exec_readInstr r rq s with ⟨-, v, h⟩ | ⟨-, v, h⟩
  · exact ⟨_, h, answered_hostRead rq v s⟩
  · exact ⟨_, h, answered_surfaceRead v s⟩

theorem exec_ctrl_answered {rq : Requester} {w : Word} {i : Instr} (h : ctrlInstr rq w = .ok i) (s : State) :
    ∃ u, exec i s = .next u ∧ Answered true u := by
  rcases ctrlInstr_cases rq w with ⟨-, e⟩ | ⟨-, e⟩ | ⟨-, e⟩ | ⟨-, -, -, e⟩ <;> rw [e] at h <;> cases h
  · exact ⟨_, rfl, ((answered_construct _ true s).require _ _ s).requireHost rq s⟩
  · exact ⟨_, rfl, (((answered_startSampling true s).require _ _ s).requireReady s).requireHost rq s⟩
  · exact ⟨_, rfl, (((answered_respond_zero true _ _).require _ _ s).requireReady s).requireHost rq s⟩

theorem exec_write_answered {r : Reg} {rq : Requester} {w : Word} {i : Instr} (h : writeInstr r rq w = .ok i)
    (s : State) : ∃ u, exec i s = .next u ∧ Answered true u := by
  cases r with
  | ctrl => exact exec_ctrl_answered h s
  | fin => cases h; exact ⟨_, rfl, (answered_respond_zero true _ _).requireHost rq s⟩
  | ftgt => cases h; exact ⟨_, rfl, (answered_respond_zero true _ _).requireHost rq s⟩
  | fsmp => cases h; exact ⟨_, rfl, (answered_respond_zero true _ _).requireHost rq s⟩
  | cmdval => cases h; exact ⟨_, rfl, ((answered_respond_zero true _ _).require _ _ s).requireHost rq s⟩
  | duty => cases h; exact ⟨_, rfl, (answered_respond_zero true _ _).requireReady s⟩
  | ocen =>
    simp only [writeInstr] at h
    split at h <;> cases h <;> exact ⟨_, rfl, (answered_respond_zero true _ _).requireReady s⟩
  | _ => cases h

/-- Every word is answered, with data only where a read is performed. -/
theorem runWord_answered (t : TxnWord) (s : State) : ∃ u, runWord t s = .next u ∧ Answered (weOf t) u := by
  rcases decode_cases t with ⟨-, h⟩ | ⟨r, -, ⟨hw, h⟩ | ⟨hw, i, hi, h⟩ | ⟨-, e, -, h⟩⟩
  · exact ⟨_, runWord_of_decode_error h s, answered_respond_zero _ _ s⟩
  · rw [runWord_of_decode_ok h, hw]; exact exec_read_answered r (rqOf t) s
  · rw [runWord_of_decode_ok h, hw]; exact exec_write_answered hi s
  · exact ⟨_, runWord_of_decode_error h s, answered_respond_zero _ _ s⟩

theorem code_of_rspWord (p : Response) : (rspWord p).extractLsb' 32 4 = codeBits p.code :=
  BitVec.extractLsb'_append_eq_left

theorem rdata_of_rspWord (p : Response) : (rspWord p).extractLsb' 0 32 = p.rdata :=
  BitVec.extractLsb'_append_eq_right

/-- Settles O6: the answer of the word, in the layout of the response word. -/
theorem everyWordIsAnswered : Obligations.EveryWordIsAnswered := by
  intro t s
  obtain ⟨u, hu, p, hp, hwrite, herror⟩ := runWord_answered t s
  exact ⟨u, p, hu, hp, code_of_rspWord p, rdata_of_rspWord p, hwrite, herror⟩

end Sys2Proof.Machine

/-! PROOFS. The clock divider: when the calculator fails, the values it gives as exact quotients, the six laws of its
arithmetic, and the transactions of the frequency operands. -/

namespace Sys2Proof.Machine

/-! ### The number `p`, one more than the prescaler (R102) -/

/-- `p` is the least number whose multiple of 65536 covers the ratio (R102): every bound on `p` is one on the ratio. -/
theorem ceilPrescale_le_iff (r p : Nat) : ceilPrescale r ≤ p ↔ r ≤ 65536 * p := by
  obtain ⟨hcovers, hleast⟩ := ceilPrescale_covers r
  exact ⟨fun h => hcovers.trans (Nat.mul_le_mul_left _ h), hleast p⟩

/-- Up to 65536 no prescaling is needed. -/
theorem ceilPrescale_eq_one {r : Nat} (hr : r ≠ 0) (h : r ≤ 65536) : ceilPrescale r = 1 :=
  Nat.le_antisymm ((ceilPrescale_le_iff r 1).2 h) (ceilPrescale_bounds hr).1

/-- The largest `p` belongs to the last 65535 ratios. -/
theorem ceilPrescale_eq_max_iff {r : Nat} (h : r < 2 ^ 32) : ceilPrescale r = 65536 ↔ 2 ^ 32 - 65535 ≤ r := by
  have hmax := ceilPrescale_le h
  have hbelow := ceilPrescale_le_iff r 65535
  omega

/-- `p` is the ceiling of the exact quotient of the ratio by 65536 (R102). -/
theorem ceilPrescale_eq_ceil (r : Nat) : (ceilPrescale r : ℤ) = ⌈(r : ℚ) / 65536⌉ := by
  have hceil : ceilPrescale r = ⌈(r : ℚ) / 65536⌉₊ := eq_of_forall_ge_iff fun p => by
    rw [ceilPrescale_le_iff, Nat.ceil_le, div_le_iff₀ (by norm_num), mul_comm]
    exact_mod_cast Iff.rfl
  rw [hceil, Int.natCast_ceil_eq_ceil (by positivity)]

/-- The low half of a word is 0 exactly when 65536 divides it. -/
theorem low_half_eq_zero_iff (r : Word) : r.extractLsb' 0 16 = 0 ↔ r.toNat % 65536 = 0 := by
  simp [← BitVec.toNat_inj]

/-- The integer form of the ceiling: the high half, plus 1 if the low half is not 0 (R102). -/
theorem ceilPrescale_eq_high_half (r : Word) :
    ceilPrescale r.toNat = (r >>> 16).toNat + if r.extractLsb' 0 16 = 0 then 0 else 1 := by
  simp only [ceilPrescale, low_half_eq_zero_iff, BitVec.toNat_ushiftRight, Nat.shiftRight_eq_div_pow, Nat.reducePow]

/-- The form with `+ 65535` in 32 bits is right until the sum wraps round (R102). -/
theorem wrapped_sum_ne_ceilPrescale_iff (r : Word) :
    ((r + 65535) >>> 16).toNat ≠ ceilPrescale r.toNat ↔ 2 ^ 32 - 65536 < r.toNat := by
  have hsum : ((r + 65535) >>> 16).toNat = (r.toNat + 65535) % 2 ^ 32 / 65536 := by
    rw [BitVec.toNat_ushiftRight, BitVec.toNat_add, Nat.shiftRight_eq_div_pow]
    rfl
  have hlt := r.isLt
  rw [hsum, ceilPrescale]
  split <;> omega

/-! ### What `ClockDivider` answers (R104) -/

/-- The ratio is 0 exactly when the target lies above the input. -/
theorem ratio_eq_zero_iff {i t : Word} (ht : t ≠ 0) : i.toNat / t.toNat = 0 ↔ i < t := by
  rw [Nat.div_eq_zero_iff_lt (BitVec.toNat_pos_of_ne_zero ht), BitVec.lt_def]

theorem ratio_lt (i t : Word) : i.toNat / t.toNat < 2 ^ 32 := Nat.lt_of_le_of_lt (Nat.div_le_self _ _) i.isLt

/-- The three answers, told apart by comparing the operands. -/
theorem clockDivider_trichotomy (i t : Word) :
    (t = 0 ∧ clockDivider i t = .error .targetZero) ∨
    (t ≠ 0 ∧ i < t ∧ clockDivider i t = .error .ratioZero) ∨
    (t ≠ 0 ∧ ¬ i < t ∧ ∃ d, clockDivider i t = .ok d) := by
  rcases clockDivider_cases i t with h | ⟨ht, hr, h⟩ | ⟨ht, hr, h⟩
  · exact .inl h
  · exact .inr (.inl ⟨ht, (ratio_eq_zero_iff ht).1 hr, h⟩)
  · exact .inr (.inr ⟨ht, mt (ratio_eq_zero_iff ht).2 hr, _, h⟩)

/-- An input divides by itself without prescaling and with reload count 0. -/
theorem clockDivider_self {i : Word} (hi : i ≠ 0) : clockDivider i i = .ok ⟨0, 0⟩ := by
  have hone : i.toNat / i.toNat = 1 := Nat.div_self (BitVec.toNat_pos_of_ne_zero hi)
  have hp : ceilPrescale 1 = 1 := ceilPrescale_eq_one one_ne_zero (by omega)
  rcases clockDivider_cases i i with ⟨h, -⟩ | ⟨-, h, -⟩ | ⟨-, -, h⟩
  · exact absurd h hi
  · omega
  · simpa [hone, hp] using h

/-- On success the fields are `p - 1` and `q - 1`: nothing is lost in the narrowing to 16 bits. -/
theorem clockDivider_ok_fields {i t : Word} {d : DividerConfig} (h : clockDivider i t = .ok d) :
    i.toNat / t.toNat ≠ 0 ∧ d.prescaler.toNat + 1 = ceilPrescale (i.toNat / t.toNat) ∧
    d.reloadCount.toNat + 1 = i.toNat / t.toNat / ceilPrescale (i.toNat / t.toNat) := by
  rcases clockDivider_cases i t with ⟨-, e⟩ | ⟨-, -, e⟩ | ⟨-, hr, e⟩ <;> rw [e] at h <;> cases h
  have hp := (ceilPrescale_bounds hr).1
  have hpmax := ceilPrescale_le (ratio_lt i t)
  obtain ⟨hq, hqmax⟩ := quotient_bounds hr
  simp only [BitVec.toNat_ofNat]
  omega

theorem clockDivider_eq_targetZero_iff (i t : Word) : clockDivider i t = .error .targetZero ↔ t = 0 := by
  rcases clockDivider_trichotomy i t with ⟨ht, h⟩ | ⟨ht, -, h⟩ | ⟨ht, -, d, h⟩ <;> rw [h]
  · exact iff_of_true rfl ht
  · exact iff_of_false nofun ht
  · exact iff_of_false nofun ht

theorem clockDivider_eq_ratioZero_iff (i t : Word) : clockDivider i t = .error .ratioZero ↔ t ≠ 0 ∧ i < t := by
  rcases clockDivider_trichotomy i t with ⟨ht, h⟩ | ⟨ht, hlt, h⟩ | ⟨-, hle, d, h⟩ <;> rw [h]
  · exact iff_of_false nofun fun hne => hne.1 ht
  · exact iff_of_true rfl ⟨ht, hlt⟩
  · exact iff_of_false nofun fun hlt => hle hlt.2

/-- The causes 3, 4 and 5 are never given. -/
theorem cause_of_clockDivider_error {i t : Word} {c : CfgCause} (h : clockDivider i t = .error c) :
    c = .targetZero ∨ c = .ratioZero := by
  rcases clockDivider_trichotomy i t with ⟨-, e⟩ | ⟨-, -, e⟩ | ⟨-, -, d, e⟩ <;> rw [e] at h <;> cases h
  · exact .inl rfl
  · exact .inr rfl

theorem clockDivider_ok_of_le {i t : Word} (ht : t ≠ 0) (hle : t ≤ i) : ∃ d, clockDivider i t = .ok d := by
  rcases clockDivider_trichotomy i t with ⟨h, -⟩ | ⟨-, hlt, -⟩ | ⟨-, -, h⟩
  · exact absurd h ht
  · exact absurd hlt (BitVec.not_lt.2 hle)
  · exact h

/-- Settles O15: two causes are told apart by the operands, the others are dead, and the bounds on `p` and `q` are why. -/
theorem clockDividerFailsExactly : Obligations.ClockDividerFailsExactly := by
  intro i t
  have dead : ∀ c, c ≠ .targetZero → c ≠ .ratioZero → clockDivider i t ≠ .error c := fun c hz hr h =>
    (cause_of_clockDivider_error h).elim hz hr
  refine ⟨clockDivider_eq_targetZero_iff i t, clockDivider_eq_ratioZero_iff i t, dead _ nofun nofun, dead _ nofun nofun,
    dead _ nofun nofun, clockDivider_ok_of_le, clockDivider_self, fun ratio hpos hlt => ?_⟩
  have hne := Nat.one_le_iff_ne_zero.1 hpos
  obtain ⟨hp, hple⟩ := ceilPrescale_bounds hne
  exact ⟨hp, hple, ceilPrescale_le hlt, (quotient_bounds hne).1⟩

/-- Settles O16: the ratio is a floor of rationals, the prescaler follows `ceilPrescale_eq_ceil`, and the two ways to
compute the ceiling on words are compared with it. -/
theorem clockDividerValues : Obligations.ClockDividerValues := by
  refine ⟨fun i t d h => ?_, fun r => ?_, fun r => ?_, rfl, rfl⟩
  · obtain ⟨-, hpsc, harr⟩ := clockDivider_ok_fields h
    refine ⟨i.toNat / t.toNat, (Rat.floor_natCast_div_natCast _ _).symm, ?_, ?_⟩
    · rw [← ceilPrescale_eq_ceil, ← hpsc]; omega
    · rw [hpsc, ← harr]; omega
  · rw [← ceilPrescale_eq_ceil, ceilPrescale_eq_high_half]
  · rw [← ceilPrescale_eq_ceil, Ne, Nat.cast_inj, ← Ne, wrapped_sum_ne_ceilPrescale_iff]

/-! ### The laws of the calculator (R105) -/

/-- The realised factor `p * q` falls short of the ratio by its remainder by `p`, so by less than `p` (R105). -/
theorem shortfall_lt {r : Nat} (hr : r ≠ 0) : r - ceilPrescale r * (r / ceilPrescale r) < ceilPrescale r := by
  rw [← Nat.mod_eq_sub_mul_div]
  exact Nat.mod_lt _ (ceilPrescale_bounds hr).1

/-- With the largest `p` the quotient is 65535 (R105). -/
theorem quotient_of_ceilPrescale_max {r : Nat} (h : r < 2 ^ 32) (hp : ceilPrescale r = 65536) :
    r / ceilPrescale r = 65535 := by
  have hr := (ceilPrescale_eq_max_iff h).1 hp
  rw [hp]; omega

/-- Settles O17: with `p` and `q` read off the answer, each law is a bound on `p` carried over to the ratio, or a fact of
division with remainder. -/
theorem clockDividerLaws : Obligations.ClockDividerLaws := by
  refine ⟨fun i t d h => ?_, rfl, rfl⟩
  obtain ⟨hr, hpsc, harr⟩ := clockDivider_ok_fields h
  have hlt := ratio_lt i t
  dsimp only
  rw [hpsc, harr]
  generalize i.toNat / t.toNat = r at *
  have hshort := shortfall_lt hr
  have hmax := ceilPrescale_eq_max_iff hlt
  refine ⟨⟨Nat.le_of_lt_succ d.prescaler.isLt, Nat.le_of_lt_succ d.reloadCount.isLt⟩, ⟨Nat.mul_div_le _ _, hshort⟩,
    fun hsmall => ?_, fun hsmall => ?_, ⟨?_, fun p' hp' => ?_⟩, ?_, fun hfull => ?_⟩
  · have hone := ceilPrescale_eq_one hr hsmall
    rw [hone, Nat.div_one] at harr ⊢
    omega
  · have htwo := (ceilPrescale_le_iff r 2).2 hsmall
    omega
  · rw [Nat.mul_comm]; exact (ceilPrescale_le_iff r _).1 le_rfl
  · rw [ceilPrescale_le_iff, Nat.mul_comm]; exact hp'
  · omega
  · rw [quotient_of_ceilPrescale_max hlt (by omega)] at harr
    omega

/-! ### The frequency operands (R107 to R110, R151, R152) -/

theorem exec_setfin (rq : Requester) (v : Word) (s : State) :
    exec (.setfin rq v) s = .next (requireHost rq s (respond .ok 0 (s.withDiv { s.div with fin := v }))) := rfl

theorem exec_setftgt (rq : Requester) (v : Word) (s : State) :
    exec (.setftgt rq v) s = .next (requireHost rq s (respond .ok 0 (s.withDiv { s.div with ftgt := v }))) := rfl

theorem exec_setfsmp (rq : Requester) (v : Word) (s : State) :
    exec (.setfsmp rq v) s = .next (requireHost rq s (respond .ok 0 (s.withSs { s.ss with fsmp := v }))) := rfl

theorem exec_getfin (rq : Requester) (s : State) : exec (.getfin rq) s = .next (hostRead rq s.div.fin s) := rfl

theorem exec_getftgt (rq : Requester) (s : State) : exec (.getftgt rq) s = .next (hostRead rq s.div.ftgt s) := rfl

theorem exec_getfsmp (rq : Requester) (s : State) : exec (.getfsmp rq) s = .next (hostRead rq s.ss.fsmp s) := rfl

/-- A target of 0 is found first, whatever the input is (R100). -/
theorem clockDivider_zero_target (i : Word) : clockDivider i 0 = .error .targetZero := rfl

/-- An input of 0 lies below every target but 0. -/
theorem clockDivider_zero_input (t : Word) :
    clockDivider 0 t = .error (if t = 0 then .targetZero else .ratioZero) := by
  rcases clockDivider_trichotomy 0 t with ⟨ht, h⟩ | ⟨ht, -, h⟩ | ⟨ht, hle, -⟩
  · rw [h, if_pos ht]
  · rw [h, if_neg ht]
  · exact absurd ((BitVec.pos_iff_ne_zero t).2 ht) hle

/-- Settles O19: the host's write passes the requester check and replaces one operand, the encoder's ends at the check. -/
theorem frequencyOperandWrites : Obligations.FrequencyOperandWrites := by
  refine ⟨fun v s => ?_, fun rq v => ⟨rfl, rfl, rfl⟩, rfl, rfl, rfl, clockDivider_zero_input, clockDivider_zero_target⟩
  simp only [exec_setfin, exec_setftgt, exec_setfsmp, requireHost_host, requireHost_encoder, respond_eq,
    State.withDiv, State.withSs, and_self]

/-- Settles O20: the host's read answers the operand, the encoder's ends at the requester check, and no read looks at its
data when decoded. -/
theorem frequencyOperandReads : Obligations.FrequencyOperandReads := by
  refine ⟨fun s => ?_, fun rq w => ⟨decode_read .fin rq w, decode_read .ftgt rq w, decode_read .fsmp rq w⟩⟩
  simp only [exec_getfin, exec_getftgt, exec_getfsmp, hostRead_host, hostRead_encoder, respond_eq, and_self]

end Sys2Proof.Machine

/-! PROOFS. The carrier timer: its clock edge case by case, the transactions of the PWM surface and the diagnostic reads, and
what a step can do to the timer once construction has completed. -/

namespace Sys2Proof.Machine

/-! ### The clock edge of the unit (R127) -/

/-- The comparator: what `OUT` takes at an edge, from the values before it. -/
def carCompare (pinrt : Bool) (c : CarUnit) : Bool := pinrt && c.ocen && decide (c.cnt < c.duty)

theorem carClk_of_gated {c : CarUnit} (hclk : c.clken = false) (pinrt : Bool) : carClk pinrt c = c := by
  simp [carClk, hclk]

theorem carClk_of_stopped {c : CarUnit} (hclk : c.clken = true) (hcen : c.cen = false) (pinrt : Bool) :
    carClk pinrt c = { c with out := carCompare pinrt c } := by
  simp [carClk, carCompare, hclk, hcen]

theorem carClk_of_counting {c : CarUnit} (hclk : c.clken = true) (hcen : c.cen = true) (hp : c.pcnt = c.psc)
    (pinrt : Bool) :
    carClk pinrt c =
      { c with pcnt := 0, cnt := if c.cnt = c.arr then 0 else c.cnt + 1, out := carCompare pinrt c } := by
  simp [carClk, carCount, carCompare, hclk, hcen, hp]

theorem carClk_of_prescaling {c : CarUnit} (hclk : c.clken = true) (hcen : c.cen = true) (hp : c.pcnt ≠ c.psc)
    (pinrt : Bool) : carClk pinrt c = { c with pcnt := c.pcnt + 1, out := carCompare pinrt c } := by
  simp [carClk, carCount, carCompare, hclk, hcen, hp]

/-- An edge moves the two counters and the output flop only. -/
theorem carClk_frame (pinrt : Bool) (c : CarUnit) :
    carClk pinrt c =
      { c with cnt := (carClk pinrt c).cnt, pcnt := (carClk pinrt c).pcnt, out := (carClk pinrt c).out } := by
  rcases c.clken.eq_false_or_eq_true with hclk | hclk
  · rcases c.cen.eq_false_or_eq_true with hcen | hcen
    · by_cases hp : c.pcnt = c.psc
      · rw [carClk_of_counting hclk hcen hp]
      · rw [carClk_of_prescaling hclk hcen hp]
    · rw [carClk_of_stopped hclk hcen]
  · rw [carClk_of_gated hclk]

@[simp] theorem carClk_psc (pinrt : Bool) (c : CarUnit) : (carClk pinrt c).psc = c.psc := by rw [carClk_frame]
@[simp] theorem carClk_arr (pinrt : Bool) (c : CarUnit) : (carClk pinrt c).arr = c.arr := by rw [carClk_frame]
@[simp] theorem carClk_duty (pinrt : Bool) (c : CarUnit) : (carClk pinrt c).duty = c.duty := by rw [carClk_frame]
@[simp] theorem carClk_ocen (pinrt : Bool) (c : CarUnit) : (carClk pinrt c).ocen = c.ocen := by rw [carClk_frame]
@[simp] theorem carClk_cen (pinrt : Bool) (c : CarUnit) : (carClk pinrt c).cen = c.cen := by rw [carClk_frame]
@[simp] theorem carClk_clken (pinrt : Bool) (c : CarUnit) : (carClk pinrt c).clken = c.clken := by rw [carClk_frame]

/-- `OUT` is clocked by `CLKEN` alone: it does not matter to it whether the counter runs. -/
theorem carClk_out {c : CarUnit} (hclk : c.clken = true) (pinrt : Bool) :
    (carClk pinrt c).out = carCompare pinrt c := by
  simp only [carClk, carCompare, hclk, if_true]

/-- A clock edge is never disabled: when it is attempted it is taken (R206 item 5). -/
theorem step_of_clk {s : State} {b : Bool} (h : nextEvent s = .clk b) : step s = .next (clkStep b (consume s)) := by
  rw [step_eq, h]; rfl

/-- Settles O27: the step taken is `clkStep`, and each clause is the equation of `carClk` for its case. -/
theorem carrierClockEdge : Obligations.CarrierClockEdge := by
  intro s b h
  refine ⟨clkStep b (consume s), step_of_clk h, rfl, ?_⟩
  simp only [clkStep_car, consume_car, consume_drv]
  refine ⟨fun hclk => carClk_of_gated hclk _, fun hclk => ⟨carClk_out hclk _, carClk_psc _ _, carClk_arr _ _,
    carClk_duty _ _, carClk_ocen _ _, carClk_cen _ _, (carClk_clken _ _).trans hclk, fun hcen => ?_,
    fun hcen hp => ?_, fun hcen hp => ?_⟩⟩
  · rw [carClk_of_stopped hclk hcen]; exact ⟨rfl, rfl⟩
  · rw [carClk_of_counting hclk hcen hp]; exact ⟨rfl, rfl⟩
  · rw [carClk_of_prescaling hclk hcen hp]; exact ⟨rfl, rfl⟩

/-! ### The diagnostic reads (R129, R149, R154, R156, R181) -/

theorem exec_getpsc (rq : Requester) (s : State) :
    exec (.getpsc rq) s = .next (hostRead rq (s.car.psc.setWidth 32) s) := rfl

theorem exec_getctrl (rq : Requester) (s : State) : exec (.getctrl rq) s = .next (hostRead rq 0 s) := rfl

theorem exec_getsspsc (rq : Requester) (s : State) :
    exec (.getsspsc rq) s = .next (hostRead rq (s.ss.sspsc.setWidth 32) s) := rfl

theorem exec_getssarr (rq : Requester) (s : State) :
    exec (.getssarr rq) s = .next (hostRead rq (s.ss.ssarr.setWidth 32) s) := rfl

theorem exec_getbusycnt (rq : Requester) (s : State) :
    exec (.getbusycnt rq) s = .next (hostRead rq s.ct.busycnt s) := rfl

/-- Settles O22: each is a read of the host, which ends at the requester check for the encoder. -/
theorem diagnosticReads : Obligations.DiagnosticReads := by
  refine ⟨fun s => ?_, fun rq w => ⟨decode_read .psc rq w, decode_read .ctrl rq w, decode_read .sspsc rq w,
    decode_read .ssarr rq w, decode_read .busycnt rq w⟩⟩
  simp only [exec_getpsc, exec_getctrl, exec_getsspsc, exec_getssarr, exec_getbusycnt, hostRead_host, hostRead_encoder,
    respond_eq, and_self]

/-! ### The PWM surface (R120 to R126) -/

theorem exec_enable (rq : Requester) (s : State) :
    exec (.enable rq) s = .next (requireReady s (respond .ok 0 (s.withCar { s.car with ocen := true }))) := rfl

theorem exec_disable (rq : Requester) (s : State) :
    exec (.disable rq) s = .next (requireReady s (respond .ok 0 (s.withCar { s.car with ocen := false }))) := rfl

theorem exec_setduty (rq : Requester) (imm : Word) (s : State) :
    exec (.setduty rq imm) s =
      .next (requireReady s (respond .ok 0 (s.withCar { s.car with duty := imm.extractLsb' 0 16 }))) := rfl

theorem exec_getduty (rq : Requester) (s : State) :
    exec (.getduty rq) s = .next (surfaceRead (s.car.duty.setWidth 32) s) := rfl

theorem exec_getmaxduty (rq : Requester) (s : State) :
    exec (.getmaxduty rq) s = .next (surfaceRead (s.car.arr.setWidth 32) s) := rfl

theorem zext1_eq (b : Bool) : zext1 b = if b = true then 1 else 0 := by
  cases b <;> rfl

theorem exec_getocen (rq : Requester) (s : State) :
    exec (.getocen rq) s = .next (surfaceRead (if s.car.ocen = true then 1 else 0) s) := by
  rw [← zext1_eq]; rfl

theorem surfaceRead_of_ready {s : State} (h : s.drv.ready = true) (v : Word) : surfaceRead v s = respond .ok v s :=
  requireReady_of_ready h _

theorem surfaceRead_of_not_ready {s : State} (h : s.drv.ready = false) (v : Word) :
    surfaceRead v s = respond .eNotrdy 0 s :=
  requireReady_of_not_ready h _

/-- A word that writes a register which takes its data is the instruction of that write, from either requester. -/
theorem decode_write {r : Reg} {rq : Requester} {w : Word} {i : Instr} (h : writeInstr r rq w = .ok i) :
    decode (txnWord rq 1#1 (regAddr r) w) = .ok i := by
  simp [decode_txnWord, decodeFields, h]

theorem exec_enable_of_ready {s : State} (h : s.drv.ready = true) (rq : Requester) :
    exec (.enable rq) s = .next { s with car := { s.car with ocen := true }, rsp := some ⟨.ok, 0⟩ } := by
  rw [exec_enable, requireReady_of_ready h]; rfl

theorem exec_disable_of_ready {s : State} (h : s.drv.ready = true) (rq : Requester) :
    exec (.disable rq) s = .next { s with car := { s.car with ocen := false }, rsp := some ⟨.ok, 0⟩ } := by
  rw [exec_disable, requireReady_of_ready h]; rfl

theorem exec_setduty_of_ready {s : State} (h : s.drv.ready = true) (rq : Requester) (imm : Word) :
    exec (.setduty rq imm) s =
      .next { s with car := { s.car with duty := imm.extractLsb' 0 16 }, rsp := some ⟨.ok, 0⟩ } := by
  rw [exec_setduty, requireReady_of_ready h]; rfl

/-- Settles O24: the write replaces `OCEN`, and the comparator of the next edge is gated by what was written. -/
theorem channelArmedAndSilenced : Obligations.ChannelArmedAndSilenced := by
  refine ⟨fun rq s h => ⟨exec_enable_of_ready h rq, exec_disable_of_ready h rq⟩, fun rq s h => ?_,
    fun rq w => decode_write (r := .ocen) rfl, fun s u rq b h hclk hu => ?_, fun s u rq b h hclk hu => ?_⟩
  · simp only [exec_enable, exec_disable, requireReady_of_not_ready h, respond_eq, and_self]
  · rw [exec_disable_of_ready h] at hu
    cases hu
    simp [carClk_out, carCompare, hclk]
  · rw [exec_enable_of_ready h] at hu
    cases hu
    simp [carClk_out, carCompare, hclk]

/-- Settles O26: the write replaces `DUTY`, and the comparator of the next edge reads what was written. -/
theorem dutyWrite : Obligations.DutyWrite := by
  refine ⟨fun rq imm s => ⟨fun h => exec_setduty_of_ready h rq imm, fun h => ?_⟩, fun rq w => decode_write (r := .duty) rfl,
    rfl, rfl, fun s u rq imm b h hclk hu => ?_⟩
  · rw [exec_setduty, requireReady_of_not_ready h, respond_eq]
  · rw [exec_setduty_of_ready h] at hu
    cases hu
    simp [carClk_out, carCompare, hclk]

/-! ### The timer after construction (R131, R145) -/

/-- The only registers of the timer that `d` may hold otherwise than `c` are the two of the surface that are written, `DUTY`
and `OCEN`. -/
def SurfaceWritten (c d : CarUnit) : Prop := d = { c with duty := d.duty, ocen := d.ocen }

theorem SurfaceWritten.of_eq {c d : CarUnit} (h : d = c) : SurfaceWritten c d := by
  subst h; rfl

/-- Construction is performed once only (R145), so an instruction that finds `READY = 1` reaches the timer through the
surface. -/
theorem exec_car_of_ready {i : Instr} {s t : State} (h : exec i s = .next t) (hready : s.drv.ready = true) :
    t.drv = s.drv ∧ SurfaceWritten s.car t.car := by
  rcases exec_cases h with ⟨c, d, rfl⟩ | ⟨v, -, rfl⟩ | ⟨v, -, rfl⟩ | ⟨v, -, rfl⟩ | ⟨v, -, -, rfl⟩ | ⟨rq, -, -, rfl⟩ |
    ⟨rq, -, -, rfl⟩ | ⟨rq, v, -, -, rfl⟩ | ⟨-, hnot, -, -⟩ | ⟨-, -, -, rfl⟩ | ⟨-, -, -, rfl⟩
  case inr.inr.inr.inr.inr.inr.inr.inr.inl =>
    rw [hready] at hnot
    cases hnot
  case inr.inr.inr.inr.inr.inr.inr.inr.inr.inl =>
    rcases startSampling_cases s with ⟨c, -, e⟩ | ⟨d, -, e⟩ <;> rw [e] <;> exact ⟨rfl, rfl⟩
  all_goals exact ⟨rfl, rfl⟩

theorem runWord_car_of_ready {w : TxnWord} {s t : State} (h : runWord w s = .next t) (hready : s.drv.ready = true) :
    t.drv = s.drv ∧ SurfaceWritten s.car t.car := by
  rcases runWord_cases h with ⟨i, -, hi⟩ | ⟨e, -, rfl⟩
  · exact exec_car_of_ready hi hready
  · exact ⟨rfl, rfl⟩

/-- No step of a handler sequence reaches the timer or the construction state. -/
theorem dspEffect_drv_car (k : DspStep) (src : Source) (s : State) :
    (dspEffect k src s).drv = s.drv ∧ (dspEffect k src s).car = s.car := by
  cases k with
  | enter => exact ⟨rfl, rfl⟩
  | lock => exact ⟨rfl, rfl⟩
  | ret => rcases returnStep_cases src s with ⟨-, -, h⟩ | ⟨-, h⟩ <;> simp [dspEffect, h]
  | ack => cases src <;> exact ⟨rfl, rfl⟩
  | exit => exact ⟨rfl, rfl⟩

theorem encReturn_drv_car (s : State) : (encReturn s).drv = s.drv ∧ (encReturn s).car = s.car := by
  rcases encReturn_cases s with ⟨-, h⟩ | ⟨-, h⟩ | ⟨-, h⟩ <;> rw [h] <;> exact ⟨rfl, rfl⟩

/-- Everything a step can do to the timer once `READY = 1`: a reset aside, it is a clock edge of the timer or a write of the
surface, and the construction state is kept. -/
theorem step_car_of_ready {s t : State} (hstep : step s = .next t) (hready : s.drv.ready = true)
    (hreset : nextEvent s ≠ .reset) :
    t.drv = s.drv ∧
      ((∃ b, nextEvent s = .clk b ∧ t.car = carClk s.drv.pinrt s.car) ∨ SurfaceWritten s.car t.car) := by
  have hready' : (consume s).drv.ready = true := by rwa [consume_drv]
  rw [step_eq] at hstep
  rw [← consume_drv s, ← consume_car s]
  rcases runEvent_cases hstep with
    ⟨-, rfl⟩ | ⟨b, he, rfl⟩ | ⟨w, -, -, hw⟩ | ⟨k, src, -, -, rfl⟩ | ⟨-, -, rfl⟩ | ⟨he, -⟩
  · exact ⟨rfl, .inr rfl⟩
  · exact ⟨rfl, .inl ⟨b, he, rfl⟩⟩
  · obtain ⟨hdrv, hcar⟩ := runWord_car_of_ready hw hready'
    exact ⟨hdrv, .inr hcar⟩
  · obtain ⟨hdrv, hcar⟩ := dspEffect_drv_car k src (consume s)
    exact ⟨hdrv, .inr (.of_eq hcar)⟩
  · obtain ⟨hdrv, hcar⟩ := encReturn_drv_car (consume s)
    exact ⟨hdrv, .inr (.of_eq hcar)⟩
  · exact absurd he hreset

/-- No step but a reset stops, gates or re-tunes the timer once `READY = 1`. -/
theorem step_tuning_of_ready {s t : State} (hstep : step s = .next t) (hready : s.drv.ready = true)
    (hreset : nextEvent s ≠ .reset) :
    t.car.cen = s.car.cen ∧ t.car.clken = s.car.clken ∧ t.car.psc = s.car.psc ∧ t.car.arr = s.car.arr := by
  obtain ⟨-, ⟨b, -, hcar⟩ | hcar⟩ := step_car_of_ready hstep hready hreset <;> rw [hcar]
  · simp
  · exact ⟨rfl, rfl, rfl, rfl⟩

theorem step_counters_of_ready {s t : State} (hstep : step s = .next t) (hready : s.drv.ready = true)
    (hreset : nextEvent s ≠ .reset) (hclk : ∀ b, nextEvent s ≠ .clk b) :
    t.car.cnt = s.car.cnt ∧ t.car.pcnt = s.car.pcnt := by
  obtain ⟨-, ⟨b, he, -⟩ | hcar⟩ := step_car_of_ready hstep hready hreset
  · exact absurd he (hclk b)
  · rw [hcar]; exact ⟨rfl, rfl⟩

/-- The timer raises no interrupt: the pending flags belong to the units `SS` and `CT`. -/
theorem pending_clkStep_withCar (src : Source) (b : Bool) (s : State) (c : CarUnit) :
    pending src (clkStep b (s.withCar c)) = pending src (clkStep b s) := by
  cases src <;> rfl

/-- Settles O32: a step keeps the tuning, and consistency says that a built timer runs. -/
theorem carrierNeverRetuned : Obligations.CarrierNeverRetuned := by
  refine ⟨fun s t hc hready hstep hreset => ?_, fun s c b src => pending_clkStep_withCar src b s c⟩
  obtain ⟨hclken, hcen, -⟩ := hc.ready_built hready
  obtain ⟨hdrv, -⟩ := step_car_of_ready hstep hready hreset
  obtain ⟨hcen', hclken', hpsc, harr⟩ := step_tuning_of_ready hstep hready hreset
  exact ⟨hdrv ▸ hready, hcen'.trans hcen, hclken'.trans hclken, hpsc, harr,
    step_counters_of_ready hstep hready hreset⟩

/-- The ratio 1 needs no prescaling and reloads at 0 (R126). -/
theorem clockDivider_of_ratio_one {i t : Word} (h : i.toNat / t.toNat = 1) : clockDivider i t = .ok ⟨0, 0⟩ := by
  have hp : ceilPrescale 1 = 1 := ceilPrescale_eq_one one_ne_zero (by omega)
  rcases clockDivider_cases i t with ⟨rfl, -⟩ | ⟨-, hzero, -⟩ | ⟨-, -, hok⟩
  · simp at h
  · omega
  · simpa [h, hp] using hok

/-- Settles O25: the reads pass or end at the check of `READY`, and the maximum duty is the reload count, which every step
keeps. -/
theorem surfaceReads : Obligations.SurfaceReads := by
  refine ⟨fun rq s h => ?_, fun rq s h => ?_, fun rq w => ⟨decode_read .ocen rq w, decode_read .duty rq w,
    decode_read .arr rq w⟩, fun s t hready hstep hreset => ?_, fun i t h => ⟨_, clockDivider_of_ratio_one h, rfl⟩⟩
  · simp only [exec_getocen, exec_getduty, exec_getmaxduty, surfaceRead_of_ready h, respond_eq, and_self]
  · simp only [exec_getocen, exec_getduty, exec_getmaxduty, surfaceRead_of_not_ready h, respond_eq, and_self]
  · obtain ⟨-, -, -, harr⟩ := step_tuning_of_ready hstep hready hreset
    exact harr

end Sys2Proof.Machine

/-! PROOFS. Construction: the outcomes of `INIT` one by one, what a step can do to the construction state and the timer, and
the layout of the status. -/

namespace Sys2Proof.Machine

/-! ### The outcomes of `INIT` (R140 to R146) -/

theorem exec_init (rq : Requester) (s : State) :
    exec (.init rq) s = .next (requireHost rq s
      (require (!s.drv.ready && !s.drv.cfgerr) .eState s (construct Config.pinSetupSupported s))) := rfl

/-- Before the first construction `INIT` passes both checks. -/
theorem exec_init_of_unbuilt {s : State} (hready : s.drv.ready = false) (herr : s.drv.cfgerr = false) :
    exec (.init .host) s = .next (construct Config.pinSetupSupported s) := by
  simp [exec_init, hready, herr]

/-- After a construction, completed or failed, `INIT` ends at the check of R145. -/
theorem exec_init_of_final {s : State} (h : s.drv.ready = true ∨ s.drv.cfgerr = true) :
    exec (.init .host) s = .next { s with rsp := some ⟨.eState, 0⟩ } := by
  have hcheck : (!s.drv.ready && !s.drv.cfgerr) = false := by rcases h with h | h <;> simp [h]
  rw [exec_init, hcheck, requireHost_host, require_false, respond_eq]

/-- When the calculator fails, step 1 has reset the timer and the failure is recorded with its cause. -/
theorem construct_of_error {s : State} {c : CfgCause} (h : clockDivider s.div.fin s.div.ftgt = .error c) (b : Bool) :
    construct b s = { s with
      car := ⟨0, 0, 0, false, 0, 0, false, true, false⟩
      drv := { s.drv with cfgerr := true, cfgcause := causeBits c }
      rsp := some ⟨causeCode c, 0⟩ } := by
  simp only [construct, initStep1, State.withCar_div, h]
  rfl

/-- When the calculator succeeds, the timer runs as it says, and step 4 decides the outcome. -/
theorem construct_of_ok {s : State} {d : DividerConfig} (h : clockDivider s.div.fin s.div.ftgt = .ok d) (b : Bool) :
    construct b s = { s with
      car := ⟨d.prescaler, d.reloadCount, d.reloadCount >>> 1, false, 0, 0, true, true, false⟩
      drv := if b then { s.drv with pinrt := true, moden := true, ready := true }
        else { s.drv with cfgerr := true, cfgcause := causeBits .pinSetup }
      rsp := some ⟨if b then .ok else causeCode .pinSetup, 0⟩ } := by
  simp only [construct, initStep1, State.withCar_div, h]
  cases b <;> rfl

/-- Settles O33: the checks select construction or a refusal, and the operands select the calculator's answer. -/
theorem constructionOutcomes : Obligations.ConstructionOutcomes := by
  refine ⟨fun s hready herr => ⟨fun ht => ?_, fun ht hlt => ?_, fun ht hle => ?_⟩, fun s h => exec_init_of_final h,
    fun s => by rw [exec_init, requireHost_encoder, respond_eq], rfl, fun s hpristine hready herr => ?_⟩
  · have hdiv := (clockDivider_eq_targetZero_iff s.div.fin s.div.ftgt).2 ht
    rw [exec_init_of_unbuilt hready herr, construct_of_error hdiv]
    rfl
  · have hdiv := (clockDivider_eq_ratioZero_iff s.div.fin s.div.ftgt).2 ⟨ht, hlt⟩
    rw [exec_init_of_unbuilt hready herr, construct_of_error hdiv]
    rfl
  · obtain ⟨d, hdiv⟩ := clockDivider_ok_of_le ht hle
    exact ⟨d, hdiv, exec_init_of_unbuilt hready herr, construct_of_ok hdiv true, construct_of_ok hdiv false⟩
  · obtain ⟨-, hdrv⟩ := hpristine hready herr
    exact hdrv

/-! ### The construction state along the steps (R145) -/

/-- An instruction either performs the one construction, or keeps the construction state and reaches the timer through the
surface alone. -/
theorem exec_init_or_keeps {i : Instr} {s t : State} (h : exec i s = .next t) :
    (i = .init .host ∧ s.drv.ready = false ∧ s.drv.cfgerr = false ∧ t = construct Config.pinSetupSupported s) ∨
    (t.drv = s.drv ∧ SurfaceWritten s.car t.car) := by
  rcases exec_cases h with ⟨c, d, rfl⟩ | ⟨v, -, rfl⟩ | ⟨v, -, rfl⟩ | ⟨v, -, rfl⟩ | ⟨v, -, -, rfl⟩ | ⟨rq, -, -, rfl⟩ |
    ⟨rq, -, -, rfl⟩ | ⟨rq, v, -, -, rfl⟩ | hinit | ⟨-, hready, -⟩ | ⟨-, -, -, rfl⟩
  case inr.inr.inr.inr.inr.inr.inr.inr.inl => exact .inl hinit
  case inr.inr.inr.inr.inr.inr.inr.inr.inr.inl => exact .inr (exec_car_of_ready h hready)
  all_goals exact .inr ⟨rfl, rfl⟩

/-- Everything a step can do to the construction state and the timer, a reset aside: perform the one construction, or keep
the construction state with a clock edge of the timer or a write of the surface. -/
theorem step_init_or_keeps {s t : State} (hstep : step s = .next t) (hreset : nextEvent s ≠ .reset) :
    (∃ w, nextEvent s = .txn w ∧ decode w = .ok (.init .host) ∧ s.drv.ready = false ∧ s.drv.cfgerr = false ∧
      t = construct Config.pinSetupSupported (consume s)) ∨
    (t.drv = s.drv ∧
      ((∃ b, nextEvent s = .clk b ∧ t.car = carClk s.drv.pinrt s.car) ∨ SurfaceWritten s.car t.car)) := by
  rw [step_eq] at hstep
  rw [← consume_drv s, ← consume_car s]
  rcases runEvent_cases hstep with
    ⟨-, rfl⟩ | ⟨b, he, rfl⟩ | ⟨w, he, -, hw⟩ | ⟨k, src, -, -, rfl⟩ | ⟨-, -, rfl⟩ | ⟨he, -⟩
  · exact .inr ⟨rfl, .inr rfl⟩
  · exact .inr ⟨rfl, .inl ⟨b, he, rfl⟩⟩
  · rcases runWord_cases hw with ⟨i, hi, hexec⟩ | ⟨e, -, rfl⟩
    · rcases exec_init_or_keeps hexec with ⟨rfl, hinit⟩ | ⟨hdrv, hcar⟩
      · exact .inl ⟨w, he, hi, hinit⟩
      · exact .inr ⟨hdrv, .inr hcar⟩
    · exact .inr ⟨rfl, .inr rfl⟩
  · obtain ⟨hdrv, hcar⟩ := dspEffect_drv_car k src (consume s)
    exact .inr ⟨hdrv, .inr (.of_eq hcar)⟩
  · obtain ⟨hdrv, hcar⟩ := encReturn_drv_car (consume s)
    exact .inr ⟨hdrv, .inr (.of_eq hcar)⟩
  · exact absurd he hreset

/-- Settles O34: the one step that changes the construction state is an `INIT` that finds it open, and a clock edge or a write
of the surface keeps the tuning. -/
theorem constructionIsFinal : Obligations.ConstructionIsFinal := by
  refine fun s t hfinal => ⟨exec_init_of_final hfinal, fun hstep hreset => ?_⟩
  rcases step_init_or_keeps hstep hreset with ⟨w, -, -, hready, herr, -⟩ | ⟨hdrv, ⟨b, -, hcar⟩ | hcar⟩
  · simp [hready, herr] at hfinal
  · simp [hdrv, hcar]
  · rw [hcar]; exact ⟨hdrv, rfl, rfl, rfl, rfl⟩

/-! ### The status (R31, R147) -/

theorem exec_getstatus (rq : Requester) (s : State) :
    exec (.getstatus rq) s = .next (hostRead rq (zext16 (statusBits s)) s) := rfl

/-- A bit of the low half is the bit of the register that was extended. -/
theorem getLsbD_zext16 {i : Nat} (hi : i < 16) (v : Half) : (zext16 v).getLsbD i = v.getLsbD i := by
  have hi' : i < 32 := by omega
  simp [zext16, hi']

/-- The three bits of `CFGCAUSE` stand together above `READY` and `CFGERR` (R31). -/
theorem cfgcause_of_zext16_statusBits (s : State) : (zext16 (statusBits s)).extractLsb' 2 3 = s.drv.cfgcause := by
  refine BitVec.eq_of_getLsbD_eq fun i hi => ?_
  rw [BitVec.getLsbD_extractLsb', getLsbD_zext16 (by omega)]
  have hready : ¬ 2 + i < 1 := by omega
  have herr : ¬ 2 + i - 1 < 1 := by omega
  have hplace : 2 + i - 1 - 1 = i := by omega
  simp only [statusBits, BitVec.getLsbD_append, hready, herr, hplace, hi, if_true, if_false,
    decide_true, Bool.true_and]

/-- Every one-bit flag stands in its place in `STATUS` (R31). -/
theorem flags_of_statusBits (s : State) :
    (statusBits s).getLsbD 0 = s.drv.ready ∧ (statusBits s).getLsbD 1 = s.drv.cfgerr ∧
    (statusBits s).getLsbD 5 = s.car.clken ∧ (statusBits s).getLsbD 6 = s.car.cen ∧
    (statusBits s).getLsbD 7 = s.car.ocen ∧ (statusBits s).getLsbD 8 = s.drv.pinrt ∧
    (statusBits s).getLsbD 9 = s.drv.moden ∧ (statusBits s).getLsbD 10 = s.ss.ssen ∧
    (statusBits s).getLsbD 11 = s.ss.sspend ∧ (statusBits s).getLsbD 12 = s.ct.cten ∧
    (statusBits s).getLsbD 13 = s.ct.ctpend ∧ (statusBits s).getLsbD 14 = s.ct.busyerr ∧
    (statusBits s).getLsbD 15 = s.car.out := by
  simp only [statusBits, BitVec.getLsbD_append]
  simp

/-- Nothing stands above the 16 bits of the register. -/
theorem high_half_of_zext16 (v : Half) : (zext16 v).extractLsb' 16 16 = 0 :=
  BitVec.eq_of_getLsbD_eq fun i _ => by simp [zext16]

/-- Settles O23: the value read is the extended status, whose low bits are the flags. -/
theorem statusRead : Obligations.StatusRead := by
  refine ⟨fun s => ⟨zext16 (statusBits s), ?_, ?_, ?_⟩, fun rq w => decode_read .status rq w, rfl, rfl, rfl⟩
  · rw [exec_getstatus, hostRead_host, respond_eq]
  · rw [exec_getstatus, hostRead_encoder, respond_eq]
  · simp only [getLsbD_zext16, Nat.reduceLT, cfgcause_of_zext16_statusBits, high_half_of_zext16, flags_of_statusBits,
      and_self]

end Sys2Proof.Machine

/-! PROOFS. The sample timer: the outcomes of `SSSTART`, its clock edge case by case, what a step can do to the timer while it
runs, and the period of its overflow events. -/

namespace Sys2Proof.Machine

open Sys2Proof.Safety

/-! ### The outcomes of `SSSTART` (R153) -/

theorem exec_ssstart (rq : Requester) (s : State) :
    exec (.ssstart rq) s =
      .next (requireHost rq s (requireReady s (require (!s.ss.ssen) .eState s (startSampling s)))) := rfl

theorem exec_ssstart_of_not_ready {s : State} (h : s.drv.ready = false) :
    exec (.ssstart .host) s = .next { s with rsp := some ⟨.eNotrdy, 0⟩ } := by
  rw [exec_ssstart, requireHost_host, requireReady_of_not_ready h, respond_eq]

theorem exec_ssstart_of_running {s : State} (hready : s.drv.ready = true) (hen : s.ss.ssen = true) :
    exec (.ssstart .host) s = .next { s with rsp := some ⟨.eState, 0⟩ } := by
  rw [exec_ssstart, requireHost_host, requireReady_of_ready hready, hen, Bool.not_true, require_false, respond_eq]

/-- A stopped timer of a built transmitter passes every check, and the calculator decides. -/
theorem exec_ssstart_of_stopped {s : State} (hready : s.drv.ready = true) (hen : s.ss.ssen = false) :
    exec (.ssstart .host) s = .next (startSampling s) := by
  rw [exec_ssstart, requireHost_host, requireReady_of_ready hready, hen, Bool.not_false, require_true]

theorem startSampling_of_error {s : State} {c : CfgCause} (h : clockDivider s.div.fin s.ss.fsmp = .error c) :
    startSampling s = { s with rsp := some ⟨causeCode c, 0⟩ } := by
  simp only [startSampling, h, respond_eq]

theorem startSampling_of_ok {s : State} {d : DividerConfig} (h : clockDivider s.div.fin s.ss.fsmp = .ok d) :
    startSampling s = { s with
      ss := ⟨s.ss.fsmp, d.prescaler, d.reloadCount, 0, 0, true, s.ss.sspend⟩
      rsp := some ⟨.ok, 0⟩ } := by
  simp only [startSampling, h, respond_eq, State.withSs]

/-- Settles O36: the checks select the start or a refusal, and the operands select the calculator's answer. -/
theorem sampleTimerStart : Obligations.SampleTimerStart := by
  refine ⟨fun s hready hen => ?_, fun s => exec_ssstart_of_not_ready, fun s => exec_ssstart_of_running,
    fun s => by rw [exec_ssstart, requireHost_encoder, respond_eq], rfl, rfl⟩
  rw [exec_ssstart_of_stopped hready hen]
  refine ⟨fun ht => ?_, fun ht hlt => ?_, fun ht hle => ?_⟩
  · rw [startSampling_of_error ((clockDivider_eq_targetZero_iff _ _).2 ht), causeCode]
  · rw [startSampling_of_error ((clockDivider_eq_ratioZero_iff _ _).2 ⟨ht, hlt⟩), causeCode]
  · obtain ⟨d, hdiv⟩ := clockDivider_ok_of_le ht hle
    exact ⟨d, hdiv, by rw [startSampling_of_ok hdiv]⟩

/-- No ConfigurationError is answered `OK`. -/
theorem causeCode_ne_ok (c : CfgCause) : causeCode c ≠ .ok := by
  cases c <;> decide

/-- An `SSSTART` answered `OK` has loaded a divider into a running timer with both counters at 0. -/
theorem ss_of_ssstart_ok {s u : State} (h : exec (.ssstart .host) s = .next u) (hok : u.rsp = some ⟨.ok, 0⟩) :
    ∃ d : DividerConfig, u.ss = ⟨s.ss.fsmp, d.prescaler, d.reloadCount, 0, 0, true, s.ss.sspend⟩ := by
  rcases s.drv.ready.eq_false_or_eq_true with hready | hready
  · rcases s.ss.ssen.eq_false_or_eq_true with hen | hen
    · rw [exec_ssstart_of_running hready hen] at h
      cases h; cases hok
    · rw [exec_ssstart_of_stopped hready hen] at h
      cases h
      rcases startSampling_cases s with ⟨c, hdiv, -⟩ | ⟨d, hdiv, -⟩
      · rw [startSampling_of_error hdiv] at hok
        exact absurd (congrArg Response.code (Option.some.inj hok)) (causeCode_ne_ok c)
      · exact ⟨d, by rw [startSampling_of_ok hdiv]⟩
  · rw [exec_ssstart_of_not_ready hready] at h
    cases h; cases hok

/-! ### The clock edge of the unit (R155) -/

theorem ssClk_of_stopped {u : SsUnit} (hen : u.ssen = false) : ssClk u = u := by
  simp [ssClk, hen]

theorem ssClk_of_last {u : SsUnit} (hen : u.ssen = true) (hp : u.sspcnt = u.sspsc) (hc : u.sscnt = u.ssarr) :
    ssClk u = { u with sspcnt := 0, sscnt := 0, sspend := true } := by
  simp only [ssClk, hen, hp, hc, if_true]

theorem ssClk_of_counting {u : SsUnit} (hen : u.ssen = true) (hp : u.sspcnt = u.sspsc) (hc : u.sscnt ≠ u.ssarr) :
    ssClk u = { u with sspcnt := 0, sscnt := u.sscnt + 1 } := by
  simp only [ssClk, hen, hp, hc, if_true, if_false]

theorem ssClk_of_prescaling {u : SsUnit} (hen : u.ssen = true) (hp : u.sspcnt ≠ u.sspsc) :
    ssClk u = { u with sspcnt := u.sspcnt + 1 } := by
  simp only [ssClk, hen, hp, if_true, if_false]

theorem ssOverflows_iff (u : SsUnit) :
    ssOverflows u = true ↔ u.ssen = true ∧ u.sspcnt = u.sspsc ∧ u.sscnt = u.ssarr := by
  simp [ssOverflows, and_assoc]

/-- Settles O37: the step taken is `clkStep`, and each clause is the equation of `ssClk` for its case. -/
theorem sampleTimerClockEdge : Obligations.SampleTimerClockEdge := by
  intro s b h
  refine ⟨clkStep b (consume s), step_of_clk h, ?_⟩
  simp only [clkStep_ss, consume_ss]
  exact ⟨ssClk_of_stopped, ssClk_of_last, ssClk_of_counting, ssClk_of_prescaling⟩

/-! ### The timer while it runs -/

/-- The only registers of the timer that `v` may hold otherwise than `u` are the operand `FSMP` and the pending flag. -/
def SamplingKept (u v : SsUnit) : Prop := v = { u with fsmp := v.fsmp, sspend := v.sspend }

theorem SamplingKept.of_eq {u v : SsUnit} (h : v = u) : SamplingKept u v := by
  subst h; rfl

theorem construct_ss (b : Bool) (s : State) : (construct b s).ss = s.ss := by
  rcases construct_cases b s with ⟨c, -, h⟩ | ⟨d, -, -, h⟩ | ⟨d, -, -, h⟩ <;> rw [h] <;> rfl

/-- A running timer is not started again, so an instruction reaches its operand alone. -/
theorem exec_ss_of_running {i : Instr} {s t : State} (h : exec i s = .next t) (hen : s.ss.ssen = true) :
    SamplingKept s.ss t.ss := by
  rcases exec_cases h with ⟨c, d, rfl⟩ | ⟨v, -, rfl⟩ | ⟨v, -, rfl⟩ | ⟨v, -, rfl⟩ | ⟨v, -, -, rfl⟩ | ⟨rq, -, -, rfl⟩ |
    ⟨rq, -, -, rfl⟩ | ⟨rq, v, -, -, rfl⟩ | ⟨-, -, -, rfl⟩ | ⟨-, -, hstopped, -⟩ | ⟨-, -, -, rfl⟩
  case inr.inr.inr.inr.inr.inr.inr.inr.inl => exact .of_eq (construct_ss _ s)
  case inr.inr.inr.inr.inr.inr.inr.inr.inr.inl =>
    rw [hen] at hstopped
    cases hstopped
  all_goals exact rfl

theorem runWord_ss_of_running {w : TxnWord} {s t : State} (h : runWord w s = .next t) (hen : s.ss.ssen = true) :
    SamplingKept s.ss t.ss := by
  rcases runWord_cases h with ⟨i, -, hi⟩ | ⟨e, -, rfl⟩
  · exact exec_ss_of_running hi hen
  · rfl

/-- A step of a handler sequence reaches the pending flag alone. -/
theorem dspEffect_ss (k : DspStep) (src : Source) (s : State) : SamplingKept s.ss (dspEffect k src s).ss := by
  cases k with
  | enter => rfl
  | lock => rfl
  | ret => rcases returnStep_cases src s with ⟨-, -, h⟩ | ⟨-, h⟩ <;> exact .of_eq (by simp [dspEffect, h])
  | ack => cases src <;> rfl
  | exit => rfl

theorem encReturn_ss (s : State) : (encReturn s).ss = s.ss := by
  rcases encReturn_cases s with ⟨-, h⟩ | ⟨-, h⟩ | ⟨-, h⟩ <;> rw [h] <;> rfl

/-- Everything a step can do to a running timer, a reset aside: a clock edge advances it, any other step keeps its tuning and
its counters. -/
theorem step_ss_of_running {s t : State} (hstep : step s = .next t) (hen : s.ss.ssen = true)
    (hreset : nextEvent s ≠ .reset) :
    (∃ b, nextEvent s = .clk b ∧ t.ss = ssClk s.ss) ∨
    ((∀ b, nextEvent s ≠ .clk b) ∧ SamplingKept s.ss t.ss) := by
  have hen' : (consume s).ss.ssen = true := by rwa [consume_ss]
  rw [step_eq] at hstep
  rw [← consume_ss s]
  rcases runEvent_cases hstep with
    ⟨hoff, rfl⟩ | ⟨b, he, rfl⟩ | ⟨w, he, -, hw⟩ | ⟨k, src, he, -, rfl⟩ | ⟨he, -, rfl⟩ | ⟨he, -⟩
  · refine .inr ⟨fun b he => ?_, rfl⟩
    rw [he] at hoff
    cases hoff
  · exact .inl ⟨b, he, rfl⟩
  · exact .inr ⟨by simp [he], runWord_ss_of_running hw hen'⟩
  · exact .inr ⟨by simp [he], dspEffect_ss k src _⟩
  · exact .inr ⟨by simp [he], .of_eq (encReturn_ss _)⟩
  · exact absurd he hreset

/-! ### The place of the timer in its period (R159) -/

/-- How many clock edges of the present period have passed. -/
def samplePhase (u : SsUnit) : Nat := u.sscnt.toNat * (u.sspsc.toNat + 1) + u.sspcnt.toNat

/-- What holds of a timer that was started with period `M`, `n` clock edges ago. -/
structure SampledFor (M n : Nat) (u : SsUnit) : Prop where
  running : u.ssen = true
  sspcnt_le : u.sspcnt ≤ u.sspsc
  sscnt_le : u.sscnt ≤ u.ssarr
  period : samplePeriod u = M
  phase : n % M = samplePhase u

theorem samplePhase_lt {u : SsUnit} (hp : u.sspcnt ≤ u.sspsc) (hc : u.sscnt ≤ u.ssarr) :
    samplePhase u < samplePeriod u := by
  rw [BitVec.le_def] at hp hc
  calc u.sscnt.toNat * (u.sspsc.toNat + 1) + u.sspcnt.toNat
      < u.sscnt.toNat * (u.sspsc.toNat + 1) + (u.sspsc.toNat + 1) := by omega
    _ = (u.sspsc.toNat + 1) * (u.sscnt.toNat + 1) := by ring
    _ ≤ samplePeriod u := Nat.mul_le_mul_left _ (by omega)

/-- A cleared counter is within every limit. -/
theorem half_zero_le (m : Half) : 0 ≤ m := BitVec.le_def.2 (Nat.zero_le _)

/-- A counter short of its limit is counted up without wrapping. -/
theorem toNat_succ_of_le_of_ne {c m : Half} (hle : c ≤ m) (hne : c ≠ m) :
    (c + 1).toNat = c.toNat + 1 ∧ c + 1 ≤ m := by
  bv_omega

/-- Two units that agree on everything but the operand and the pending flag stand at the same place. -/
theorem SampledFor.of_kept {M n : Nat} {u v : SsUnit} (h : SampledFor M n u) (hkept : SamplingKept u v) :
    SampledFor M n v := by
  rw [hkept]
  exact ⟨h.running, h.sspcnt_le, h.sscnt_le, h.period, h.phase⟩

/-- A clock edge ends the period at the last count of both counters and otherwise moves one place on. -/
theorem SampledFor.ssClk_cases {M n : Nat} {u : SsUnit} (h : SampledFor M n u) :
    (ssOverflows u = true ∧ samplePhase u + 1 = M ∧ samplePhase (ssClk u) = 0) ∨
    (ssOverflows u = false ∧ samplePhase (ssClk u) = samplePhase u + 1) := by
  by_cases hp : u.sspcnt = u.sspsc
  · by_cases hc : u.sscnt = u.ssarr
    · refine .inl ⟨(ssOverflows_iff u).2 ⟨h.running, hp, hc⟩, ?_, by simp [ssClk_of_last h.running hp hc, samplePhase]⟩
      rw [← h.period, samplePhase, samplePeriod, hp, hc]
      ring
    · refine .inr ⟨by simp [ssOverflows, hc], ?_⟩
      have hnext : samplePhase (ssClk u) = (u.sscnt + 1).toNat * (u.sspsc.toNat + 1) + 0 := by
        rw [ssClk_of_counting h.running hp hc]; rfl
      rw [hnext, (toNat_succ_of_le_of_ne h.sscnt_le hc).1, samplePhase, hp]
      ring
  · refine .inr ⟨by simp [ssOverflows, hp], ?_⟩
    simp only [ssClk_of_prescaling h.running hp, samplePhase, (toNat_succ_of_le_of_ne h.sspcnt_le hp).1]
    ring

theorem SampledFor.ssOverflows_iff_phase {M n : Nat} {u : SsUnit} (h : SampledFor M n u) :
    ssOverflows u = true ↔ samplePhase (ssClk u) = 0 := by
  rcases h.ssClk_cases with ⟨hover, -, hphase⟩ | ⟨hover, hphase⟩ <;> simp [hover, hphase]

/-- A clock edge keeps the timer running within its limits, and its tuning. -/
theorem SampledFor.ssClk_frame {M n : Nat} {u : SsUnit} (h : SampledFor M n u) :
    (ssClk u).ssen = true ∧ (ssClk u).sspcnt ≤ (ssClk u).sspsc ∧ (ssClk u).sscnt ≤ (ssClk u).ssarr ∧
      samplePeriod (ssClk u) = M := by
  by_cases hp : u.sspcnt = u.sspsc
  · by_cases hc : u.sscnt = u.ssarr
    · rw [ssClk_of_last h.running hp hc]
      exact ⟨h.running, half_zero_le _, half_zero_le _, h.period⟩
    · rw [ssClk_of_counting h.running hp hc]
      exact ⟨h.running, half_zero_le _, (toNat_succ_of_le_of_ne h.sscnt_le hc).2, h.period⟩
  · rw [ssClk_of_prescaling h.running hp]
    exact ⟨h.running, (toNat_succ_of_le_of_ne h.sspcnt_le hp).2, h.sscnt_le, h.period⟩

/-- A clock edge is counted: the place in the period is the number of edges modulo the period. -/
theorem SampledFor.succ {M n : Nat} {u : SsUnit} (h : SampledFor M n u) : SampledFor M (n + 1) (ssClk u) := by
  obtain ⟨hen, hp, hc, hM⟩ := h.ssClk_frame
  refine ⟨hen, hp, hc, hM, ?_⟩
  rw [← Nat.mod_add_mod, h.phase]
  rcases h.ssClk_cases with ⟨-, hlast, hphase⟩ | ⟨-, hphase⟩
  · rw [hlast, hphase, Nat.mod_self]
  · rw [← hphase]
    exact Nat.mod_eq_of_lt (hM ▸ samplePhase_lt hp hc)

/-- The next edge overflows exactly when the period divides its number. -/
theorem SampledFor.ssOverflows_iff_dvd {M n : Nat} {u : SsUnit} (h : SampledFor M n u) :
    ssOverflows u = true ↔ M ∣ n + 1 := by
  rw [h.ssOverflows_iff_phase, Nat.dvd_iff_mod_eq_zero, h.succ.phase]

/-- A successful `SSSTART` begins a period. -/
theorem sampledFor_of_ssstart_ok {s u : State} (h : exec (.ssstart .host) s = .next u) (hok : u.rsp = some ⟨.ok, 0⟩) :
    SampledFor (samplePeriod u.ss) 0 u.ss := by
  obtain ⟨d, hss⟩ := ss_of_ssstart_ok h hok
  rw [hss]
  exact ⟨rfl, half_zero_le _, half_zero_le _, rfl, by simp [samplePhase]⟩

/-! ### Runs along an agenda -/

theorem dspEffect_agenda (k : DspStep) (src : Source) (s : State) : (dspEffect k src s).agenda = s.agenda := by
  cases k with
  | enter => rfl
  | lock => rfl
  | ret => rcases returnStep_cases src s with ⟨-, -, h⟩ | ⟨-, h⟩ <;> simp [dspEffect, h]
  | ack => cases src <;> rfl
  | exit => rfl

theorem encReturn_agenda (s : State) : (encReturn s).agenda = s.agenda := by
  rcases encReturn_cases s with ⟨-, h⟩ | ⟨-, h⟩ | ⟨-, h⟩ <;> rw [h] <;> rfl

/-- A step takes one entry off the agenda, whichever agent's step it is. -/
theorem step_agenda {s t : State} (h : step s = .next t) : t.agenda = s.agenda.tail := by
  rw [step_eq] at h
  rw [← consume_agenda]
  rcases runEvent_cases h with
    ⟨-, rfl⟩ | ⟨b, -, rfl⟩ | ⟨w, -, -, hw⟩ | ⟨k, src, -, -, rfl⟩ | ⟨-, -, rfl⟩ | ⟨-, rfl⟩
  · rfl
  · rfl
  · rcases runWord_cases hw with ⟨i, -, hi⟩ | ⟨e, -, rfl⟩
    · obtain ⟨-, -, hagenda, -⟩ := exec_frame hi
      exact hagenda
    · rfl
  · exact dspEffect_agenda k src _
  · exact encReturn_agenda _
  · rfl

theorem run_of_step {s t : State} (h : step s = .next t) (k : Nat) :
    Sys2Proof.core.run (k + 1) s = Sys2Proof.core.run k t := by
  have hcore : Sys2Proof.core.step s = .next t := h
  simp only [Host.Core.run, hcore]

/-- A run that ends in a state has taken its first step. -/
theorem run_succ {k : Nat} {s v : State} (h : Sys2Proof.core.run (k + 1) s = .next v) :
    ∃ t, step s = .next t ∧ Sys2Proof.core.run k t = .next v := by
  cases hstep : step s with
  | next t => exact ⟨t, rfl, by rwa [run_of_step hstep] at h⟩
  | fault r => cases r
  | refused r =>
    have hrefused : Sys2Proof.core.step s = .refused r := hstep
    simp [Host.Core.run, hrefused] at h

theorem clkCount_clk (b : Bool) (es : List Event) : clkCount (.clk b :: es) = clkCount es + 1 := by
  simp [clkCount]

theorem clkCount_of_ne_clk {e : Event} (h : ∀ b, e ≠ .clk b) (es : List Event) : clkCount (e :: es) = clkCount es := by
  cases e with
  | clk b => exact absurd rfl (h b)
  | _ => rfl

/-- Whatever steps the agents take but a reset, the edges among them are counted. -/
theorem SampledFor.run {M : Nat} (es : List Event) : ∀ {n : Nat} {s v : State}, SampledFor M n s.ss → s.agenda = es →
    .reset ∉ es → Sys2Proof.core.run es.length s = .next v → SampledFor M (n + clkCount es) v.ss := by
  induction es with
  | nil =>
    intro n s v h _ _ hrun
    cases hrun
    exact h
  | cons e es ih =>
    intro n s v h hagenda hreset hrun
    obtain ⟨t, hstep, hrun⟩ := run_succ hrun
    have he : nextEvent s = e := nextEvent_of_agenda hagenda
    have htail : t.agenda = es := by rw [step_agenda hstep, hagenda, List.tail_cons]
    obtain ⟨hne, hreset⟩ := List.ne_and_not_mem_of_not_mem_cons hreset
    rcases step_ss_of_running hstep h.running (he ▸ hne.symm) with ⟨b, hb, hss⟩ | ⟨hclk, hkept⟩
    · rw [← he, hb, clkCount_clk, Nat.add_comm _ 1, ← Nat.add_assoc]
      exact ih (hss ▸ h.succ) htail hreset hrun
    · rw [clkCount_of_ne_clk (he ▸ hclk)]
      exact ih (h.of_kept hkept) htail hreset hrun

/-- Settles O38: the start begins a period, the run counts its edges, and the next one overflows when it completes a
period. -/
protected theorem samplePeriod : Obligations.SamplePeriod := by
  intro s u v es hstart hok hreset hrun
  have hbegin : SampledFor (samplePeriod u.ss) 0 (withAgenda u es).ss := sampledFor_of_ssstart_ok hstart hok
  have h := hbegin.run es rfl hreset hrun
  rw [Nat.zero_add] at h
  exact h.ssOverflows_iff_dvd

end Sys2Proof.Machine

/-! PROOFS. The command trigger: the outcomes of `SETCMD`, `GETCMD` and `CTARM`, and the clock edge of the edge detector. -/

namespace Sys2Proof.Machine

/-! ### The command register (R177, R179) -/

theorem exec_setcmd (rq : Requester) (imm : Word) (s : State) :
    exec (.setcmd rq imm) s = .next (requireHost rq s (require (!s.ct.cten) .eState s
      (respond .ok 0 (s.withCt { s.ct with cmdval := imm.extractLsb' 0 17 })))) := rfl

theorem exec_getcmd (rq : Requester) (s : State) :
    exec (.getcmd rq) s = .next (hostRead rq (s.ct.cmdval.setWidth 32) s) := rfl

theorem exec_setcmd_of_unarmed {s : State} (h : s.ct.cten = false) (imm : Word) :
    exec (.setcmd .host imm) s =
      .next { s with ct := { s.ct with cmdval := imm.extractLsb' 0 17 }, rsp := some ⟨.ok, 0⟩ } := by
  rw [exec_setcmd, requireHost_host, h, Bool.not_false, require_true]
  rfl

/-- Once the trigger is armed the command is frozen. -/
theorem exec_setcmd_of_armed {s : State} (h : s.ct.cten = true) (imm : Word) :
    exec (.setcmd .host imm) s = .next { s with rsp := some ⟨.eState, 0⟩ } := by
  rw [exec_setcmd, requireHost_host, h, Bool.not_true, require_false, respond_eq]

/-- A field of the command is the same field of the immediate: what the narrowing drops lies above all three (R25). -/
theorem command_fields (imm : Word) :
    commandCode (narrowCommand imm) = imm.extractLsb' 0 8 ∧
    commandAddress (narrowCommand imm) = imm.extractLsb' 8 8 ∧
    commandRepeat (narrowCommand imm) = imm.getLsbD 16 := by
  refine ⟨?_, ?_, ?_⟩
  · rw [commandCode, narrowCommand, BitVec.extractLsb'_extractLsb'_of_le (by decide)]
  · rw [commandAddress, narrowCommand, BitVec.extractLsb'_extractLsb'_of_le (by decide)]
  · simp [commandRepeat, narrowCommand]

/-- Settles O39: the write passes the requester check and is stopped by an armed trigger, the read by neither. -/
theorem commandRegister : Obligations.CommandRegister := by
  refine ⟨fun imm s => ⟨fun h => exec_setcmd_of_unarmed h imm, fun h => exec_setcmd_of_armed h imm, ?_, ?_, ?_⟩,
    command_fields, fun rq w => ⟨decode_write (r := .cmdval) rfl, decode_read .cmdval rq w⟩, rfl⟩
  · rw [exec_setcmd, requireHost_encoder, respond_eq]
  · rw [exec_getcmd, hostRead_host, respond_eq]
  · rw [exec_getcmd, hostRead_encoder, respond_eq]

/-! ### The clock edge of the edge detector (R178) -/

/-- An edge moves the sampled level and the pending flag only. -/
theorem ctClk_frame (b : Bool) (u : CtUnit) : ctClk b u = { u with btnq := b, ctpend := (ctClk b u).ctpend } := rfl

theorem ctClk_of_falling {u : CtUnit} (hen : u.cten = true) (hbtn : u.btnq = true) :
    ctClk false u = { u with btnq := false, ctpend := true } := by
  simp [ctClk, hen, hbtn]

/-- Unarmed, or at an edge that is not a falling one, only the level is sampled. -/
theorem ctClk_of_not_falling {u : CtUnit} {b : Bool} (h : ¬(u.cten = true ∧ u.btnq = true ∧ b = false)) :
    ctClk b u = { u with btnq := b } := by
  have hedge : (u.cten && u.btnq && !b) = false := by simpa [and_assoc] using h
  rw [ctClk, hedge, Bool.or_false]

/-- Settles O41: the step taken is `clkStep`, and the pending flag follows the equation of `ctClk` for its case. -/
theorem edgeDetectorClockEdge : Obligations.EdgeDetectorClockEdge := by
  refine ⟨fun s b h => ⟨clkStep b (consume s), step_of_clk h, ?_⟩, rfl⟩
  rw [clkStep_ct, consume_ct]
  refine ⟨by rw [ctClk_frame], fun hen hbtn hb => ?_, fun hno => by rw [ctClk_of_not_falling hno], ?_⟩
  · rw [hb, ctClk_of_falling hen hbtn]
  · rw [ctClk_frame]
    exact ⟨rfl, rfl, rfl, rfl⟩

/-! ### Arming the trigger (R180) -/

theorem exec_ctarm (rq : Requester) (s : State) :
    exec (.ctarm rq) s = .next (requireHost rq s (requireReady s (require (!s.ct.cten) .eState s
      (respond .ok 0 (s.withCt { s.ct with cten := true }))))) := rfl

theorem exec_ctarm_of_not_ready {s : State} (h : s.drv.ready = false) :
    exec (.ctarm .host) s = .next { s with rsp := some ⟨.eNotrdy, 0⟩ } := by
  rw [exec_ctarm, requireHost_host, requireReady_of_not_ready h, respond_eq]

theorem exec_ctarm_of_armed {s : State} (hready : s.drv.ready = true) (hen : s.ct.cten = true) :
    exec (.ctarm .host) s = .next { s with rsp := some ⟨.eState, 0⟩ } := by
  rw [exec_ctarm, requireHost_host, requireReady_of_ready hready, hen, Bool.not_true, require_false, respond_eq]

theorem exec_ctarm_of_unarmed {s : State} (hready : s.drv.ready = true) (hen : s.ct.cten = false) :
    exec (.ctarm .host) s = .next { s with ct := { s.ct with cten := true }, rsp := some ⟨.ok, 0⟩ } := by
  rw [exec_ctarm, requireHost_host, requireReady_of_ready hready, hen, Bool.not_false, require_true]
  rfl

/-- Arming keeps the level sampled at the last edge, so a fall to the next one is detected. -/
theorem ctpend_of_fall_across_ctarm {s u : State} (hready : s.drv.ready = true) (hen : s.ct.cten = false)
    (hbtn : s.ct.btnq = true) (hu : exec (.ctarm .host) s = .next u) : (clkStep false u).ct.ctpend = true := by
  rw [exec_ctarm_of_unarmed hready hen] at hu
  cases hu
  have hfall : ctClk false { s.ct with cten := true } = { s.ct with btnq := false, cten := true, ctpend := true } :=
    ctClk_of_falling rfl hbtn
  rw [clkStep_ct, hfall]

/-- Settles O40: the checks select the arming or a refusal, and an armed trigger sees the fall across it. -/
theorem triggerArming : Obligations.TriggerArming := by
  refine ⟨fun s => exec_ctarm_of_unarmed, fun s => exec_ctarm_of_not_ready, fun s => exec_ctarm_of_armed, fun s => ?_, rfl,
    fun s u => ctpend_of_fall_across_ctarm⟩
  rw [exec_ctarm, requireHost_encoder, respond_eq]

end Sys2Proof.Machine

/-! PROOFS. Exceptions: the code of the first check that fails, and the ceiling of a critical section. -/

namespace Sys2Proof.Machine

/-! ### The code of a response (R190, R194) -/

/-- The response that stands on `rsp` carries this code. -/
def AnsweredWith (c : RespCode) (s : State) : Prop := ∃ p, s.rsp = some p ∧ p.code = c

theorem answeredWith_respond (c : RespCode) (v : Word) (s : State) : AnsweredWith c (respond c v s) := ⟨_, rfl, rfl⟩

/-- A check in front of the rest puts its own code in front of the rest's. -/
theorem AnsweredWith.require {c' : RespCode} {r : State} (h : AnsweredWith c' r) {b : Bool} {P : Prop} [Decidable P]
    (hfails : b = false ↔ P) (c : RespCode) (s : State) : AnsweredWith (if P then c else c') (require b c s r) := by
  rcases require_cases b c s r with ⟨hb, e⟩ | ⟨hb, e⟩ <;> rw [e]
  · rwa [if_neg (hfails.not.1 (by simp [hb]))]
  · rw [if_pos (hfails.1 hb)]
    exact answeredWith_respond c 0 s

theorem AnsweredWith.requireHost {c : RespCode} {r : State} (h : AnsweredWith c r) (rq : Requester) (s : State) :
    AnsweredWith (if rq = .encoder then .eAcc else c) (requireHost rq s r) :=
  h.require (by cases rq <;> decide) .eAcc s

theorem AnsweredWith.requireReady {c : RespCode} {r : State} (h : AnsweredWith c r) (s : State) :
    AnsweredWith (if s.drv.ready = false then .eNotrdy else c) (requireReady s r) :=
  h.require Iff.rfl .eNotrdy s

/-- The three checks of the commands that switch something on once: the host asks, `READY = 1`, not on yet. -/
theorem AnsweredWith.requireOnce {c : RespCode} {r : State} (h : AnsweredWith c r) (rq : Requester) (b : Bool)
    (s : State) :
    AnsweredWith
      (if rq = .encoder then .eAcc else if s.drv.ready = false then .eNotrdy else if b = true then .eState else c)
      (Machine.requireHost rq s (Machine.requireReady s (Machine.require (!b) .eState s r))) :=
  ((h.require (by simp) .eState s).requireReady s).requireHost rq s

/-- The calculator's failures come in the order of R100, the setup's after them. -/
theorem answeredWith_construct (b : Bool) (s : State) :
    AnsweredWith
      (if s.div.ftgt = 0 then .cfgTz else if s.div.fin < s.div.ftgt then .cfgRz else if b = true then .ok else .cfgPin)
      (construct b s) := by
  rcases clockDivider_trichotomy s.div.fin s.div.ftgt with ⟨ht, h⟩ | ⟨ht, hlt, h⟩ | ⟨ht, hle, d, h⟩
  · rw [if_pos ht, construct_of_error h]
    exact ⟨_, rfl, rfl⟩
  · rw [if_neg ht, if_pos hlt, construct_of_error h]
    exact ⟨_, rfl, rfl⟩
  · rw [if_neg ht, if_neg hle, construct_of_ok h]
    exact ⟨_, rfl, rfl⟩

theorem answeredWith_startSampling (s : State) :
    AnsweredWith (if s.ss.fsmp = 0 then .cfgTz else if s.div.fin < s.ss.fsmp then .cfgRz else .ok)
      (startSampling s) := by
  rcases clockDivider_trichotomy s.div.fin s.ss.fsmp with ⟨ht, h⟩ | ⟨ht, hlt, h⟩ | ⟨ht, hle, d, h⟩
  · rw [if_pos ht, startSampling_of_error h]
    exact ⟨_, rfl, rfl⟩
  · rw [if_neg ht, if_pos hlt, startSampling_of_error h]
    exact ⟨_, rfl, rfl⟩
  · rw [if_neg ht, if_neg hle, startSampling_of_ok h]
    exact ⟨_, rfl, rfl⟩

/-! ### The checks of a word in their order (R194) -/

/-- The step answers next, with a response of this code. -/
def RespondsWith (c : RespCode) (r : Result) : Prop := ∃ u p, r = .next u ∧ u.rsp = some p ∧ p.code = c

theorem AnsweredWith.next {c : RespCode} {u : State} (h : AnsweredWith c u) : RespondsWith c (.next u) := by
  obtain ⟨p, hp, hc⟩ := h
  exact ⟨u, p, rfl, hp, hc⟩

theorem respondsWith_of_decode_error {t : TxnWord} {e : DecodeError} (h : decode t = .error e) (s : State) :
    RespondsWith (refusalCode e) (runWord t s) :=
  ⟨_, _, runWord_of_decode_error h s, rfl, rfl⟩

/-- The addresses of the PWM surface are those of its registers (R73). -/
theorem regAddr_mem_surface_iff (r : Reg) : regAddr r ∈ [0x28, 0x2C, 0x30] ↔ inPwmSurface r = true := by
  cases r <;> decide

/-- A read meets the requester check off the PWM surface and the check of `READY` on it. -/
theorem respondsWith_read (r : Reg) (rq : Requester) (s : State) :
    RespondsWith
      (if rq = .encoder ∧ inPwmSurface r = false then .eAcc
        else if inPwmSurface r = true ∧ s.drv.ready = false then .eNotrdy else .ok)
      (exec (readInstr r rq) s) := by
  rcases exec_readInstr r rq s with ⟨hr, v, h⟩ | ⟨hr, v, h⟩ <;> rw [h]
  · simpa [hr, hostRead] using ((answeredWith_respond .ok v s).requireHost rq s).next
  · simpa [hr, surfaceRead] using ((answeredWith_respond .ok v s).requireReady s).next

theorem respondsWith_init (rq : Requester) (s : State) :
    RespondsWith
      (if rq = .encoder then .eAcc
        else if s.drv.ready = true ∨ s.drv.cfgerr = true then .eState
        else if s.div.ftgt = 0 then .cfgTz else if s.div.fin < s.div.ftgt then .cfgRz
        else if Config.pinSetupSupported = true then .ok else .cfgPin)
      (exec (.init rq) s) := by
  have hfails : (!s.drv.ready && !s.drv.cfgerr) = false ↔ s.drv.ready = true ∨ s.drv.cfgerr = true := by
    simp [or_iff_not_imp_left]
  exact (((answeredWith_construct _ s).require hfails .eState s).requireHost rq s).next

/-- Both writes of `OCEN` meet the check of `READY` alone. -/
theorem respondsWith_ocen (b : Bool) (rq : Requester) (s : State) :
    RespondsWith (if s.drv.ready = false then .eNotrdy else .ok)
      (exec (if b then .enable rq else .disable rq) s) := by
  cases b <;> exact ((answeredWith_respond .ok 0 _).requireReady s).next

theorem respondsWith_write {t : TxnWord} {r : Reg} {i : Instr} {c : RespCode} {s : State}
    (hr : regAt (addrOf t) = some r) (hw : weOf t = true) (hi : writeInstr r (rqOf t) (wdataOf t) = .ok i)
    (h : RespondsWith c (exec i s)) : RespondsWith c (runWord t s) := by
  rwa [runWord_of_decode_ok (decode_of_write_ok hr hw hi)]

/-- A write that its register refuses: the requester check comes before the refusal (R194, C10). -/
theorem respondsWith_refused_write {t : TxnWord} {r : Reg} {e : DecodeError} (hr : regAt (addrOf t) = some r)
    (hw : weOf t = true) (he : writeInstr r (rqOf t) (wdataOf t) = .error e) (s : State) :
    RespondsWith (if rqOf t = .encoder ∧ inPwmSurface r = false then .eAcc else refusalCode e) (runWord t s) :=
  ⟨_, _, runWord_of_refused_write hr hw he s, rfl, rfl⟩

/-- Settles O8: at each register the checks that a word can still fail are those its instruction makes, in that order. -/
theorem firstFailingCheckDecides : Obligations.FirstFailingCheckDecides := by
  intro t s
  show RespondsWith _ (runWord t s)
  split
  · next hunmapped => exact respondsWith_of_decode_error (decode_of_unmapped ((regAt_eq_none_iff _).2 hunmapped)) s
  next hmapped =>
  obtain ⟨r, hr⟩ := Option.ne_none_iff_exists'.1 (mt (regAt_eq_none_iff _).1 hmapped)
  have ha : addrOf t = regAddr r := (regAddr_of_regAt _ _ hr).symm
  cases hw : weOf t with
  | false =>
    rw [runWord_of_decode_ok (decode_of_read hr hw)]
    simp only [ha, regAddr_mem_surface_iff, Bool.not_eq_true, Bool.false_eq_true, false_and, or_false, if_false]
    exact respondsWith_read r (rqOf t) s
  | true =>
    cases r with
    | fin | ftgt | fsmp =>
      simpa [ha, regAddr] using
        respondsWith_write hr hw rfl ((answeredWith_respond .ok 0 _).requireHost (rqOf t) s).next
    | duty => simpa [ha, regAddr] using respondsWith_write hr hw rfl ((answeredWith_respond .ok 0 _).requireReady s).next
    | ocen => simpa [ha, regAddr] using respondsWith_write hr hw rfl (respondsWith_ocen _ (rqOf t) s)
    | cmdval =>
      have hfails : (!s.ct.cten) = false ↔ s.ct.cten = true := by simp
      simpa [ha, regAddr] using
        respondsWith_write hr hw rfl (((answeredWith_respond .ok 0 _).require hfails .eState s).requireHost (rqOf t) s).next
    | ctrl =>
      rcases ctrlInstr_cases (rqOf t) (wdataOf t) with ⟨hd, hi⟩ | ⟨hd, hi⟩ | ⟨hd, hi⟩ | ⟨h1, h2, h3, hi⟩
      · simpa [ha, regAddr, hd] using respondsWith_write hr hw hi (respondsWith_init (rqOf t) s)
      · simpa [ha, regAddr, hd] using
          respondsWith_write hr hw hi ((answeredWith_startSampling s).requireOnce (rqOf t) s.ss.ssen s).next
      · simpa [ha, regAddr, hd] using
          respondsWith_write hr hw hi ((answeredWith_respond .ok 0 _).requireOnce (rqOf t) s.ct.cten s).next
      · simp only [BitVec.ofNat_eq_ofNat] at h1 h2 h3
        simpa [ha, regAddr, h1, h2, h3, inPwmSurface, refusalCode] using respondsWith_refused_write hr hw hi s
    | _ => simpa [ha, regAddr, inPwmSurface, refusalCode] using respondsWith_refused_write hr hw rfl s

/-! ### The ceiling of a critical section (R203) -/

theorem prio_le_ceiling (prio : Source → Nat) (src : Source) : prio src ≤ max (prio .ss) (prio .ct) := by
  cases src
  · exact le_max_left _ _
  · exact le_max_right _ _

/-- Under the lock the current priority is the ceiling, which no source exceeds. -/
theorem enterEnabled_of_locked (prio : Source → Nat) {s : State} (hstk : s.dsp.stk ≠ []) (hlock : s.dsp.lock = true)
    (src : Source) : enterEnabled prio src s = false := by
  refine Bool.eq_false_iff.2 fun hen => ?_
  obtain ⟨-, -, habove, -⟩ := (enterEnabled_iff prio src s).1 hen
  rw [currentPriority_locked prio hstk hlock] at habove
  exact absurd (prio_le_ceiling prio src) (Nat.not_le.2 habove)

/-- Settles O48: the rows of the current priority, and the ceiling it is under the lock. -/
theorem criticalSectionAdmitsNoInterrupt : Obligations.CriticalSectionAdmitsNoInterrupt :=
  ⟨fun prio d => ⟨currentPriority_host prio d, currentPriority_locked prio, fun _ _ => currentPriority_unlocked prio⟩,
    fun prio _ src hstk hlock => enterEnabled_of_locked prio hstk hlock src, fun _ => Nat.succ_pos _⟩

end Sys2Proof.Machine

/-! PROOFS. Straight after the hardware reset: what each instruction answers, and what clock edges do to a block whose
three clocked units are off. -/

namespace Sys2Proof.Machine

open Sys2Proof.Safety

/-! ### The answers of the port (R221) -/

/-- With both operands as reset left them, the calculator finds the target 0. -/
theorem clockDivider_reset : clockDivider State.reset.div.fin State.reset.div.ftgt = .error .targetZero :=
  clockDivider_zero_target State.reset.div.fin

/-- Every register the host may read before construction shows 0, as does a view of a calculator that fails. -/
theorem exec_host_reads_reset :
    ∀ i ∈ [Instr.getfin .host, .getftgt .host, .getfsmp .host, .getcmd .host, .getdivpsc .host, .getdivarr .host,
        .getstatus .host, .getpsc .host, .getsspsc .host, .getssarr .host, .getbusycnt .host, .getctrl .host],
      exec i State.reset = .next { State.reset with rsp := some ⟨.ok, 0⟩ } := by
  obtain ⟨hdiv, hcar, -, hss, hct, -, -⟩ := hasResetValues_reset
  obtain ⟨hpsc, harr, -⟩ := exec_host_divReads_of_error clockDivider_reset
  have hstatus : zext16 (statusBits State.reset) = 0 := rfl
  simp [exec_getfin, exec_getftgt, exec_getfsmp, exec_getcmd, hpsc, harr, exec_getstatus, hstatus, exec_getpsc,
    exec_getsspsc, exec_getssarr, exec_getbusycnt, exec_getctrl, respond_eq, hdiv, hcar, hss, hct]

/-- Before construction has completed, the PWM surface and the two commands behind `READY` end at that check. -/
theorem exec_ready_gated_of_not_ready {s : State} (h : s.drv.ready = false) :
    ∀ i ∈ [Instr.getmaxduty .host, .getduty .host, .getocen .host, .enable .host, .disable .host, .ssstart .host,
        .ctarm .host], exec i s = .next { s with rsp := some ⟨.eNotrdy, 0⟩ } := by
  simp [exec_getmaxduty, exec_getduty, exec_getocen, exec_enable, exec_disable,
    exec_ssstart_of_not_ready h, exec_ctarm_of_not_ready h, surfaceRead_of_not_ready h, requireReady_of_not_ready h,
    respond_eq]

/-- The first `INIT` fails with cause 1, and the failure stands in the way of the second. -/
theorem exec_init_reset :
    ∃ u, exec (.init .host) State.reset = .next u ∧ u.rsp = some ⟨.cfgTz, 0⟩ ∧ u.drv.cfgerr = true ∧
      exec (.init .host) u = .next { u with rsp := some ⟨.eState, 0⟩ } := by
  have hconstruct := construct_of_error clockDivider_reset Config.pinSetupSupported
  have herr : (construct Config.pinSetupSupported State.reset).drv.cfgerr = true := by rw [hconstruct]
  exact ⟨_, exec_init_of_unbuilt rfl rfl, by rw [hconstruct]; rfl, herr, exec_init_of_final (.inr herr)⟩

/-! ### Clock edges while the clocked units are off -/

/-- The carrier timer has no clock, the sample timer is stopped and the trigger is unarmed. -/
structure UnitsOff (s : State) : Prop where
  carrier : s.car.clken = false
  sampler : s.ss.ssen = false
  trigger : s.ct.cten = false

theorem unitsOff_reset : UnitsOff State.reset := ⟨rfl, rfl, rfl⟩

theorem UnitsOff.clkStep {s : State} (h : UnitsOff s) (b : Bool) :
    clkStep b s = { s with ct := { s.ct with btnq := b } } := by
  have hct : ctClk b s.ct = { s.ct with btnq := b } := ctClk_of_not_falling (by simp [h.trigger])
  rw [Machine.clkStep, carClk_of_gated h.carrier, ssClk_of_stopped h.sampler, hct]

/-- `BTNQ` is none of the three enables, so the units stay off along the edges and only the last level is left. -/
theorem UnitsOff.clkSteps_succ {s : State} (h : UnitsOff s) (btn : Nat → Bool) (n : Nat) :
    clkSteps btn (n + 1) s = { s with ct := { s.ct with btnq := btn n } } := by
  induction n with
  | zero => exact h.clkStep (btn 0)
  | succ n ih =>
    have hoff : UnitsOff { s with ct := { s.ct with btnq := btn n } } := ⟨h.carrier, h.sampler, h.trigger⟩
    rw [clkSteps, ih, hoff.clkStep]

theorem UnitsOff.pending_clkSteps {s : State} (h : UnitsOff s) (src : Source) (btn : Nat → Bool) (n : Nat) :
    pending src (clkSteps btn n s) = pending src s := by
  cases n with
  | zero => rfl
  | succ n => rw [h.clkSteps_succ]; cases src <;> rfl

/-- What is not pending cannot be entered, whatever the priorities (R198). -/
theorem enterEnabled_of_not_pending (prio : Source → Nat) {src : Source} {s : State} (h : pending src s = false) :
    enterEnabled prio src s = false := by
  simp only [enterEnabled, h, Bool.false_and]

/-- Settles O55: the answers come from the checks and the zeroed registers, and the clocked units are off, so that nothing
becomes pending. -/
theorem answersAfterReset : Obligations.AnswersAfterReset := by
  refine ⟨exec_host_reads_reset, ?_, exec_ready_gated_of_not_ready rfl, fun v => ?_, exec_init_reset,
    unitsOff_reset.clkSteps_succ, fun prio src btn n => enterEnabled_of_not_pending prio ?_⟩
  · obtain ⟨-, -, hst⟩ := exec_host_divReads_of_error clockDivider_reset
    exact hst
  · rw [exec_setduty, requireReady_of_not_ready rfl, respond_eq]
  · rw [unitsOff_reset.pending_clkSteps]; cases src <;> rfl

end Sys2Proof.Machine

/-! PROOFS. The encoder of words: every instruction is a read or a write of one register, and encoding and decoding are
inverse to each other up to the ignored bits. -/

namespace Sys2Proof

/-! ### The word of an instruction, by its register (R84) -/

/-- The word of a read addresses its register, with `WDATA` 0. -/
theorem encode_readInstr (r : Reg) (rq : Requester) : encode (readInstr r rq) = txnWord rq 0#1 (regAddr r) 0 := by
  cases r <;> rfl

/-- The data that the write of a register looks at: bit 0 for `OCEN`, everything elsewhere (R80, R81). -/
def significantData (r : Reg) (w : Word) : Word := if r = .ocen then w &&& 1 else w

theorem significantData_of_ne_ocen {r : Reg} (h : r ≠ .ocen) (w : Word) : significantData r w = w := if_neg h

theorem encode_ctrlInstr {rq : Requester} {w : Word} {i : Instr} (h : ctrlInstr rq w = .ok i) :
    encode i = txnWord rq 1#1 (regAddr .ctrl) w := by
  rcases ctrlInstr_cases rq w with ⟨rfl, e⟩ | ⟨rfl, e⟩ | ⟨rfl, e⟩ | ⟨-, -, -, e⟩ <;> rw [e] at h <;> cases h <;> rfl

theorem encode_of_ocen_write {rq : Requester} {w : Word} {i : Instr} (h : writeInstr .ocen rq w = .ok i) :
    encode i = txnWord rq 1#1 (regAddr .ocen) (w &&& 1) := by
  have hbit : w &&& 1 = (BitVec.ofBool (w.getLsbD 0)).setWidth 32 := BitVec.and_one_eq_setWidth_ofBool_getLsbD
  rw [hbit]
  cases hw : w.getLsbD 0 <;> simp only [writeInstr, hw] at h <;> cases h <;> rfl

/-- The word of a write addresses its register and carries the data that the write looks at. -/
theorem encode_of_writeInstr {r : Reg} {rq : Requester} {w : Word} {i : Instr} (h : writeInstr r rq w = .ok i) :
    encode i = txnWord rq 1#1 (regAddr r) (significantData r w) := by
  cases r with
  | ocen => exact encode_of_ocen_write h
  | ctrl => exact encode_ctrlInstr h
  | _ => cases h <;> rfl

/-- Every instruction is the read of a register or a write of one, and its word says which. -/
theorem instr_read_or_write (i : Instr) :
    (∃ r rq, i = readInstr r rq) ∨ ∃ r rq w, writeInstr r rq w = .ok i ∧ encode i = txnWord rq 1#1 (regAddr r) w := by
  cases i with
  | setfin rq v => exact .inr ⟨.fin, rq, v, rfl, rfl⟩
  | setftgt rq v => exact .inr ⟨.ftgt, rq, v, rfl, rfl⟩
  | setfsmp rq v => exact .inr ⟨.fsmp, rq, v, rfl, rfl⟩
  | setcmd rq v => exact .inr ⟨.cmdval, rq, v, rfl, rfl⟩
  | setduty rq v => exact .inr ⟨.duty, rq, v, rfl, rfl⟩
  | init rq => exact .inr ⟨.ctrl, rq, 1, rfl, rfl⟩
  | ssstart rq => exact .inr ⟨.ctrl, rq, 2, rfl, rfl⟩
  | ctarm rq => exact .inr ⟨.ctrl, rq, 3, rfl, rfl⟩
  | enable rq => exact .inr ⟨.ocen, rq, 1, rfl, rfl⟩
  | disable rq => exact .inr ⟨.ocen, rq, 0, rfl, rfl⟩
  | getfin rq => exact .inl ⟨.fin, rq, rfl⟩
  | getftgt rq => exact .inl ⟨.ftgt, rq, rfl⟩
  | getfsmp rq => exact .inl ⟨.fsmp, rq, rfl⟩
  | getcmd rq => exact .inl ⟨.cmdval, rq, rfl⟩
  | getdivpsc rq => exact .inl ⟨.divpsc, rq, rfl⟩
  | getdivarr rq => exact .inl ⟨.divarr, rq, rfl⟩
  | getdivst rq => exact .inl ⟨.divst, rq, rfl⟩
  | getctrl rq => exact .inl ⟨.ctrl, rq, rfl⟩
  | getstatus rq => exact .inl ⟨.status, rq, rfl⟩
  | getpsc rq => exact .inl ⟨.psc, rq, rfl⟩
  | getmaxduty rq => exact .inl ⟨.arr, rq, rfl⟩
  | getduty rq => exact .inl ⟨.duty, rq, rfl⟩
  | getocen rq => exact .inl ⟨.ocen, rq, rfl⟩
  | getsspsc rq => exact .inl ⟨.sspsc, rq, rfl⟩
  | getssarr rq => exact .inl ⟨.ssarr, rq, rfl⟩
  | getbusycnt rq => exact .inl ⟨.busycnt, rq, rfl⟩

/-- Settles O1: the word of a read decodes by its register, the word of a write by its register and data. -/
theorem decodeOfEncode : Obligations.DecodeOfEncode := by
  intro i
  rcases instr_read_or_write i with ⟨r, rq, rfl⟩ | ⟨r, rq, w, hi, hword⟩
  · rw [encode_readInstr]
    exact Machine.decode_read r rq 0
  · rw [hword]
    exact Machine.decode_write hi

/-! ### The ignored bits of a word (R80, R81) -/

theorem rqOf_and_of_encoder {u : TxnWord} (h : rqOf u = .encoder) (t : TxnWord) : rqOf (t &&& u) = rqOf t := by
  simp_all [rqOf]

/-- A word under a mask that keeps everything but data has its data masked. -/
theorem and_mask_eq_txnWord {m : TxnWord} (hrq : rqOf m = .encoder) (hwe : weOf m = true) (haddr : addrOf m = 0xFF#8)
    (t : TxnWord) :
    t &&& m = txnWord (rqOf t) (BitVec.ofBool (weOf t)) (addrOf t) (wdataOf t &&& wdataOf m) := by
  have hall : addrOf t &&& 0xFF#8 = addrOf t := BitVec.and_allOnes
  rw [← txnWord_of_fields (t &&& m), rqOf_and_of_encoder hrq, weOf_and, addrOf_and, wdataOf_and, hwe, haddr, hall,
    Bool.and_true]

theorem canonical_of_read {t : TxnWord} (hw : weOf t = false) :
    canonical t = txnWord (rqOf t) 0#1 (addrOf t) 0 := by
  rw [canonical, if_neg (by simp [hw]), and_mask_eq_txnWord (by decide) (by decide) (by decide), hw]
  have hmask : wdataOf 0x3FF00000000 = 0#32 := by decide
  rw [hmask, BitVec.and_zero]
  rfl

theorem canonical_of_write {t : TxnWord} (hw : weOf t = true) {r : Reg} (ha : addrOf t = regAddr r) :
    canonical t = txnWord (rqOf t) 1#1 (regAddr r) (significantData r (wdataOf t)) := by
  have hocen : regAddr r = 0x30 ↔ r = .ocen := by cases r <;> decide
  rw [canonical, if_pos hw, ha]
  by_cases hr : r = .ocen
  · have hmask : wdataOf 0x3FF00000001 = 1 := by decide
    rw [if_pos (hocen.2 hr), and_mask_eq_txnWord (by decide) (by decide) (by decide), hw, ha, hmask, significantData,
      if_pos hr]
    rfl
  · have hfields := txnWord_of_fields t
    rw [hw, ha] at hfields
    rw [if_neg (mt hocen.1 hr), significantData_of_ne_ocen hr]
    exact hfields.symm

/-- Settles O2: both words have the fields of the given one, with the data its instruction looks at. -/
theorem encodeOfDecodeIsCanonical : Obligations.EncodeOfDecodeIsCanonical := by
  intro t i h
  rcases decode_cases t with ⟨-, e⟩ | ⟨r, hr, ⟨hw, e⟩ | ⟨hw, j, hj, e⟩ | ⟨-, err, -, e⟩⟩ <;> rw [e] at h <;> cases h
  · rw [encode_readInstr, canonical_of_read hw, regAddr_of_regAt _ _ hr]
  · rw [encode_of_writeInstr hj, canonical_of_write hw (regAddr_of_regAt _ _ hr).symm]

/-- Settles O5: each word is one of 95_test_vectors.md, run through the decoder. -/
theorem sampleWordsDecode : Obligations.SampleWordsDecode :=
  ⟨rfl, rfl, rfl, rfl, rfl, rfl, rfl, rfl, rfl, rfl, rfl, rfl, rfl, rfl, rfl⟩

end Sys2Proof

/-! PROOFS. The invariants: that they hold at reset, and that each agent's step keeps `Consistent`. -/

namespace Sys2Proof.Machine

open Sys2Proof.Safety

/-! ### Straight after reset -/

theorem consistent_reset : Consistent State.reset := by
  constructor <;> simp [State.reset]

theorem nested_reset : Nested State.reset := by
  constructor <;> simp [State.reset]

/-- Settles O56: every counter and flag is 0 and the stack is empty. -/
theorem invariantsHoldAtReset : Obligations.InvariantsHoldAtReset :=
  ⟨consistent_reset, nested_reset, fun h => absurd rfl h, fun _ _ => ⟨rfl, rfl⟩⟩

/-! ### `Consistent` speaks of five units -/

/-- What the ports, the operands and the encoder hold does not matter to R43. -/
theorem consistent_of_units {s t : State} (h : Consistent s) (hcar : t.car = s.car) (hdrv : t.drv = s.drv)
    (hss : t.ss = s.ss) (hct : t.ct = s.ct) (hdsp : t.dsp = s.dsp) : Consistent t := by
  obtain ⟨_, car, drv, ss, ct, dsp, _, _, _, _, _⟩ := t
  obtain rfl : car = s.car := hcar
  obtain rfl : drv = s.drv := hdrv
  obtain rfl : ss = s.ss := hss
  obtain rfl : ct = s.ct := hct
  obtain rfl : dsp = s.dsp := hdsp
  exact { h with }

theorem consistent_consume {s : State} (h : Consistent s) : Consistent (consume s) :=
  consistent_of_units h (consume_car s) (consume_drv s) (consume_ss s) (consume_ct s) (consume_dsp s)

theorem consistent_resetStep (s : State) : Consistent (resetStep s) :=
  consistent_of_units consistent_reset rfl rfl rfl rfl rfl

/-! ### A clock edge -/

/-- The carrier counters stay within their limits (R43 item 1). -/
theorem carClk_within {c : CarUnit} (hcnt : c.cnt ≤ c.arr) (hpcnt : c.pcnt ≤ c.psc) (pinrt : Bool) :
    (carClk pinrt c).cnt ≤ c.arr ∧ (carClk pinrt c).pcnt ≤ c.psc := by
  rcases c.clken.eq_false_or_eq_true with hclk | hclk
  · rcases c.cen.eq_false_or_eq_true with hcen | hcen
    · by_cases hp : c.pcnt = c.psc
      · rw [carClk_of_counting hclk hcen hp]
        refine ⟨?_, half_zero_le _⟩
        by_cases hc : c.cnt = c.arr
        · simpa [hc] using half_zero_le c.arr
        · simpa [hc] using (toNat_succ_of_le_of_ne hcnt hc).2
      · rw [carClk_of_prescaling hclk hcen hp]
        exact ⟨hcnt, (toNat_succ_of_le_of_ne hpcnt hp).2⟩
    · rw [carClk_of_stopped hclk hcen]
      exact ⟨hcnt, hpcnt⟩
  · rw [carClk_of_gated hclk]
    exact ⟨hcnt, hpcnt⟩

/-- A gated flop keeps its value, a clocked one follows the comparator: in both cases `OUT` needs `PINRT`. -/
theorem carClk_out_pinrt {pinrt : Bool} {c : CarUnit} (h : c.out = true → pinrt = true) :
    (carClk pinrt c).out = true → pinrt = true := by
  rcases c.clken.eq_false_or_eq_true with hclk | hclk
  · rw [carClk_out hclk, carCompare]
    cases pinrt <;> simp
  · rwa [carClk_of_gated hclk]

/-- The sample counters stay within their limits, and an overflow comes from a running timer. -/
theorem ssClk_within {u : SsUnit} (hcnt : u.sscnt ≤ u.ssarr) (hpcnt : u.sspcnt ≤ u.sspsc)
    (hpend : u.sspend = true → u.ssen = true) :
    (ssClk u).sscnt ≤ (ssClk u).ssarr ∧ (ssClk u).sspcnt ≤ (ssClk u).sspsc ∧ (ssClk u).ssen = u.ssen ∧
      ((ssClk u).sspend = true → u.ssen = true) := by
  rcases u.ssen.eq_false_or_eq_true with hen | hen
  · by_cases hp : u.sspcnt = u.sspsc
    · by_cases hc : u.sscnt = u.ssarr
      · rw [ssClk_of_last hen hp hc]
        exact ⟨half_zero_le _, half_zero_le _, rfl, fun _ => hen⟩
      · rw [ssClk_of_counting hen hp hc]
        exact ⟨(toNat_succ_of_le_of_ne hcnt hc).2, half_zero_le _, rfl, fun _ => hen⟩
    · rw [ssClk_of_prescaling hen hp]
      exact ⟨hcnt, (toNat_succ_of_le_of_ne hpcnt hp).2, rfl, fun _ => hen⟩
  · rw [ssClk_of_stopped hen]
    exact ⟨hcnt, hpcnt, rfl, hpend⟩

/-- A falling edge is latched by an armed trigger only. -/
theorem ctClk_ctpend_cten {u : CtUnit} (h : u.ctpend = true → u.cten = true) (b : Bool) :
    (ctClk b u).ctpend = true → u.cten = true := by
  simp only [ctClk, Bool.or_eq_true, Bool.and_eq_true]
  rintro (hpend | ⟨⟨hen, -⟩, -⟩)
  · exact h hpend
  · exact hen

theorem consistent_clkStep {s : State} (h : Consistent s) (b : Bool) : Consistent (clkStep b s) := by
  obtain ⟨hcnt, hpcnt⟩ := carClk_within h.cnt_le h.pcnt_le s.drv.pinrt
  obtain ⟨hsscnt, hsspcnt, hssen, hsspend⟩ := ssClk_within h.sscnt_le h.sspcnt_le h.sspend_ssen
  exact { h with
    cnt_le := by simpa using hcnt
    pcnt_le := by simpa using hpcnt
    sscnt_le := hsscnt
    sspcnt_le := hsspcnt
    ready_built := by simpa using h.ready_built
    ocen_ready := by simpa using h.ocen_ready
    ssen_ready := by simpa [hssen] using h.ssen_ready
    sspend_ssen := by simpa [hssen] using hsspend
    ctpend_cten := ctClk_ctpend_cten h.ctpend_cten b
    out_pinrt := carClk_out_pinrt h.out_pinrt }

/-! ### A transaction -/

/-- The causes are numbered 1 to 5 (R31). -/
theorem causeBits_range (c : CfgCause) : causeBits c ≠ 0 ∧ causeBits c ≤ 5 := by
  cases c <;> decide

/-- The one construction starts from unset failure flags and leaves the timer at the start of a period. -/
theorem consistent_construct {s : State} (h : Consistent s) (hready : s.drv.ready = false)
    (herr : s.drv.cfgerr = false) (b : Bool) : Consistent (construct b s) := by
  cases hdiv : clockDivider s.div.fin s.div.ftgt with
  | error c =>
    obtain ⟨hne, hle⟩ := causeBits_range c
    rw [construct_of_error hdiv]
    exact { h with
      cnt_le := half_zero_le _
      pcnt_le := half_zero_le _
      ready_built := fun hr => absurd hr (by simp [hready])
      failed_iff := iff_of_true rfl hne
      cause_le := hle
      ocen_ready := nofun
      out_pinrt := nofun }
  | ok d =>
    rw [construct_of_ok hdiv]
    cases b with
    | true =>
      exact { h with
        cnt_le := half_zero_le _
        pcnt_le := half_zero_le _
        ready_built := fun _ => ⟨rfl, rfl, rfl, rfl, herr⟩
        ocen_ready := nofun
        ssen_ready := fun _ => rfl
        cten_ready := fun _ => rfl
        out_pinrt := nofun }
    | false =>
      obtain ⟨hne, hle⟩ := causeBits_range .pinSetup
      exact { h with
        cnt_le := half_zero_le _
        pcnt_le := half_zero_le _
        ready_built := fun hr => absurd hr (by simp [hready])
        failed_iff := iff_of_true rfl hne
        cause_le := hle
        ocen_ready := nofun
        out_pinrt := nofun }

theorem consistent_startSampling {s : State} (h : Consistent s) (hready : s.drv.ready = true) :
    Consistent (startSampling s) := by
  cases hdiv : clockDivider s.div.fin s.ss.fsmp with
  | error c => rw [startSampling_of_error hdiv]; exact { h with }
  | ok d =>
    rw [startSampling_of_ok hdiv]
    exact { h with
      sscnt_le := half_zero_le _
      sspcnt_le := half_zero_le _
      ssen_ready := fun _ => hready
      sspend_ssen := fun _ => rfl }

theorem consistent_exec {i : Instr} {s t : State} (h : Consistent s) (he : exec i s = .next t) : Consistent t := by
  rcases exec_cases he with ⟨c, d, rfl⟩ | ⟨v, -, rfl⟩ | ⟨v, -, rfl⟩ | ⟨v, -, rfl⟩ | ⟨v, -, -, rfl⟩ |
    ⟨rq, -, hready, rfl⟩ | ⟨rq, -, -, rfl⟩ | ⟨rq, v, -, -, rfl⟩ |
    ⟨-, hready, herr, rfl⟩ | ⟨-, hready, -, rfl⟩ | ⟨-, hready, -, rfl⟩
  · exact { h with }
  · exact { h with }
  · exact { h with }
  · exact { h with }
  · exact { h with }
  · exact { h with ocen_ready := fun _ => hready }
  · exact { h with ocen_ready := nofun }
  · exact { h with }
  · exact consistent_construct h hready herr _
  · exact consistent_startSampling h hready
  · exact { h with cten_ready := fun _ => hready, ctpend_cten := fun _ => rfl }

theorem consistent_runWord {w : TxnWord} {s t : State} (h : Consistent s) (hw : runWord w s = .next t) :
    Consistent t := by
  rcases runWord_cases hw with ⟨i, -, hi⟩ | ⟨e, -, rfl⟩
  · exact consistent_exec h hi
  · exact { h with }

/-! ### A step of a handler sequence -/

/-- A lock that is held names the phase of the top entry (R43 item 7). -/
theorem lock_eq_false_of_top {s : State} (h : Consistent s) {src : Source} {ph : Phase} {rest : List Entry}
    (hstk : s.dsp.stk = ⟨src, ph⟩ :: rest) (hph : ph ≠ .locked) : s.dsp.lock = false := by
  refine Bool.eq_false_iff.2 fun hlock => ?_
  obtain ⟨src', rest', htop⟩ := h.lock_top hlock
  rw [hstk] at htop
  cases htop
  exact hph rfl

/-- Where a source may enter, nobody holds the lock (R203). -/
theorem lock_eq_false_of_enterEnabled {s : State} (h : Consistent s) {prio : Source → Nat} {src : Source}
    (hen : enterEnabled prio src s = true) : s.dsp.lock = false := by
  refine Bool.eq_false_iff.2 fun hlock => ?_
  obtain ⟨src', rest, htop⟩ := h.lock_top hlock
  have hoff := enterEnabled_of_locked prio (by simp [htop]) hlock src
  rw [hen] at hoff
  cases hoff

theorem consistent_takeInterrupt {s : State} (h : Consistent s) {prio : Source → Nat} {src : Source}
    (hen : enterEnabled prio src s = true) : Consistent (takeInterrupt src s) := by
  obtain ⟨-, hnot, -, -⟩ := (enterEnabled_iff prio src s).1 hen
  have hlock := lock_eq_false_of_enterEnabled h hen
  exact { h with
    stk_nodup := List.nodup_cons.2 ⟨hnot, h.stk_nodup⟩
    lock_top := fun hl => absurd (hlock.symm.trans hl) nofun }

theorem consistent_lockStep {s : State} (h : Consistent s) {src : Source} (htop : topIs src .entered s.dsp = true) :
    Consistent (lockStep src s) := by
  obtain ⟨rest, hstk⟩ := (topIs_iff _ _ _).1 htop
  exact { h with
    stk_nodup := by simpa using h.stk_nodup
    lock_top := fun _ => ⟨src, rest, by simp [hstk]⟩
    call_iff := iff_of_true (by cases src <;> exact nofun) rfl }

theorem consistent_unlock {s : State} (h : Consistent s) : Consistent (unlock s) :=
  { h with
    stk_nodup := by simpa using h.stk_nodup
    lock_top := nofun
    call_iff := iff_of_false (fun hc => hc rfl) nofun }

theorem consistent_returnStep {s : State} (h : Consistent s) (src : Source) : Consistent (returnStep src s) := by
  rcases returnStep_cases src s with ⟨-, -, e⟩ | ⟨-, e⟩ <;> rw [e]
  · exact { consistent_unlock h with busy_iff := iff_of_true rfl (saturatingSucc_ne_zero _) }
  · exact consistent_unlock h

/-- In a later phase than the critical section nobody holds the lock, so only the flag is left to look at. -/
theorem consistent_ackStep {s : State} (h : Consistent s) {src : Source} (htop : topIs src .returned s.dsp = true) :
    Consistent (ackStep src s) := by
  obtain ⟨rest, hstk⟩ := (topIs_iff _ _ _).1 htop
  have hlock := lock_eq_false_of_top h hstk nofun
  have hdsp : Consistent (s.withDsp { s.dsp with stk := setTopPhase .acked s.dsp.stk }) := { h with
    stk_nodup := by simpa using h.stk_nodup
    lock_top := fun hl => absurd (hlock.symm.trans hl) nofun }
  cases src with
  | ss => exact { hdsp with sspend_ssen := nofun }
  | ct => exact { hdsp with ctpend_cten := nofun }

theorem consistent_leaveInterrupt {s : State} (h : Consistent s) {src : Source} (htop : topIs src .acked s.dsp = true) :
    Consistent (leaveInterrupt s) := by
  obtain ⟨rest, hstk⟩ := (topIs_iff _ _ _).1 htop
  have hlock := lock_eq_false_of_top h hstk nofun
  exact { h with
    stk_nodup := h.stk_nodup.sublist ((List.tail_sublist _).map _)
    lock_top := fun hl => absurd (hlock.symm.trans hl) nofun }

theorem consistent_dspEffect {s : State} (h : Consistent s) {k : DspStep} {src : Source}
    (hen : dspEnabled Config.prio k src s = true) : Consistent (dspEffect k src s) := by
  cases k with
  | enter => exact consistent_takeInterrupt h hen
  | lock => exact consistent_lockStep h hen
  | ret => exact consistent_returnStep h src
  | ack => exact consistent_ackStep h hen
  | exit => exact consistent_leaveInterrupt h hen

theorem consistent_encReturn {s : State} (h : Consistent s) : Consistent (encReturn s) := by
  rcases encReturn_cases s with ⟨-, e⟩ | ⟨-, e⟩ | ⟨-, e⟩ <;> rw [e]
  · exact h
  · exact { h with }
  · exact { h with }

theorem consistent_runEvent {e : Event} {s t : State} (h : Consistent s) (hstep : runEvent e s = .next t) :
    Consistent t := by
  rcases runEvent_cases hstep with
    ⟨-, rfl⟩ | ⟨b, -, rfl⟩ | ⟨w, -, -, hw⟩ | ⟨k, src, -, hen, rfl⟩ | ⟨-, -, rfl⟩ | ⟨-, rfl⟩
  · exact h
  · exact consistent_clkStep h b
  · exact consistent_runWord h hw
  · exact consistent_dspEffect h hen
  · exact consistent_encReturn h
  · exact consistent_resetStep s

/-- Settles O57: consuming the event touches no unit, and the step of each agent keeps what R43 says of the units it
reaches. -/
theorem stepKeepsConsistent : Obligations.StepKeepsConsistent := fun s t h hstep =>
  consistent_runEvent (consistent_consume h) (by rwa [step_eq] at hstep)

end Sys2Proof.Machine

/-! PROOFS. How handler sequences nest: that each agent's step keeps `Nested`, and that a sequence is active only when
`READY = 1`. -/

namespace Sys2Proof.Machine

open Sys2Proof.Safety

/-! ### `Nested` speaks of the dispatcher and the encoder -/

theorem nested_of_units {s t : State} (h : Nested s) (hdsp : t.dsp = s.dsp) (henc : t.enc = s.enc) : Nested t := by
  obtain ⟨_, _, _, _, _, dsp, enc, _, _, _, _⟩ := t
  obtain rfl : dsp = s.dsp := hdsp
  obtain rfl : enc = s.enc := henc
  exact { h with }

/-- Only the two sources can be on the stack, each once. -/
theorem depth_le_of_nodup {l : List Entry} (h : (l.map (·.src)).Nodup) : l.length ≤ 2 := by
  match l, h with
  | [], _ => simp
  | [_], _ => simp
  | [_, _], _ => simp
  | a :: b :: c :: rest, h =>
    simp only [List.map_cons, List.nodup_cons, List.mem_cons, not_or] at h
    cases ha : a.src <;> cases hb : b.src <;> cases hc : c.src <;> simp [ha, hb, hc] at h

/-! ### The steps of a handler sequence -/

/-- Where the lock is free, no entry of the stack is in its critical section. -/
theorem not_locked_of_unlocked {s : State} (h : Nested s) (hlock : s.dsp.lock = false) :
    ∀ e ∈ s.dsp.stk, e.ph ≠ .locked := by
  intro e he hph
  cases hstk : s.dsp.stk with
  | nil => simp [hstk] at he
  | cons top rest =>
    rw [hstk] at he
    rcases List.mem_cons.1 he with rfl | hrest
    · obtain ⟨src, ph⟩ := e
      obtain rfl : ph = .locked := hph
      simpa [hlock] using h.top_locked src rest hstk
    · exact h.below_unlocked e (by simpa [hstk] using hrest) hph

/-- Nobody enters under the lock, so the entry that is preempted is outside its critical section and less urgent. -/
theorem nested_takeInterrupt {s : State} (hc : Consistent s) (h : Nested s) {src : Source}
    (hen : enterEnabled Config.prio src s = true) : Nested (takeInterrupt src s) := by
  have hlock := lock_eq_false_of_enterEnabled hc hen
  obtain ⟨-, -, habove, -⟩ := (enterEnabled_iff Config.prio src s).1 hen
  exact { h with
    depth_le := depth_le_of_nodup (consistent_takeInterrupt hc hen).stk_nodup
    upper_more_urgent := fun a b hstk => by
      obtain ⟨rfl, hrest⟩ := List.cons.inj hstk
      rwa [currentPriority_unlocked Config.prio hrest hlock] at habove
    below_unlocked := not_locked_of_unlocked h hlock
    top_locked := fun src' rest hstk => nomatch (List.cons.inj hstk).1
    call_of_top := fun e rest hl => absurd (hlock.symm.trans hl) nofun }

/-- Replacing the phase of the top entry keeps the sources, in order, and what lies below. -/
theorem urgency_setTopPhase {l : List Entry} {ph : Phase}
    (h : ∀ a b, l = [a, b] → Config.prio b.src < Config.prio a.src) :
    ∀ a b, setTopPhase ph l = [a, b] → Config.prio b.src < Config.prio a.src := by
  intro a b hl
  match l, hl with
  | [c, d], hl =>
    simp only [setTopPhase_cons, List.cons.injEq, and_true] at hl
    obtain ⟨rfl, rfl⟩ := hl
    exact h c d rfl

theorem nested_lockStep {s : State} (h : Nested s) {src : Source} (htop : topIs src .entered s.dsp = true) :
    Nested (lockStep src s) := by
  obtain ⟨rest, hstk⟩ := (topIs_iff _ _ _).1 htop
  exact { h with
    depth_le := by simpa using h.depth_le
    upper_more_urgent := urgency_setTopPhase h.upper_more_urgent
    below_unlocked := by simpa using h.below_unlocked
    top_locked := fun _ _ _ => rfl
    call_of_top := fun e rest' _ htop' => by
      rw [lockStep_dsp, hstk] at htop'
      obtain ⟨rfl, -⟩ := List.cons.inj htop'
      rfl
    ret_in_call := fun hret => absurd rfl hret }

/-- `RETURN` leaves no call, no lock and no return behind. -/
theorem nested_unlock {s : State} (h : Nested s) {src : Source} (htop : topIs src .locked s.dsp = true) :
    Nested (unlock s) := by
  obtain ⟨rest, hstk⟩ := (topIs_iff _ _ _).1 htop
  exact { h with
    depth_le := by simpa using h.depth_le
    upper_more_urgent := urgency_setTopPhase h.upper_more_urgent
    below_unlocked := by simpa using h.below_unlocked
    top_locked := fun src' rest' htop' => by simp [hstk] at htop'
    call_of_top := nofun
    ret_in_call := fun hret => absurd rfl hret }

theorem nested_returnStep {s : State} (h : Nested s) {src : Source} (htop : topIs src .locked s.dsp = true) :
    Nested (returnStep src s) := by
  rcases returnStep_cases src s with ⟨-, -, e⟩ | ⟨-, e⟩ <;> rw [e]
  · exact nested_of_units (nested_unlock h htop) rfl rfl
  · exact nested_unlock h htop

theorem nested_ackStep {s : State} (hc : Consistent s) (h : Nested s) {src : Source}
    (htop : topIs src .returned s.dsp = true) : Nested (ackStep src s) := by
  obtain ⟨rest, hstk⟩ := (topIs_iff _ _ _).1 htop
  have hlock := lock_eq_false_of_top hc hstk nofun
  have hdsp : Nested (s.withDsp { s.dsp with stk := setTopPhase .acked s.dsp.stk }) := { h with
    depth_le := by simpa using h.depth_le
    upper_more_urgent := urgency_setTopPhase h.upper_more_urgent
    below_unlocked := by simpa using h.below_unlocked
    top_locked := fun src' rest' htop' => by simp [hstk] at htop'
    call_of_top := fun e rest' hl => absurd (hlock.symm.trans hl) nofun }
  cases src <;> exact nested_of_units hdsp rfl rfl

/-- The entry that `EXIT` uncovers was below the top, so it is outside its critical section. -/
theorem nested_leaveInterrupt {s : State} (hc : Consistent s) (h : Nested s) {src : Source}
    (htop : topIs src .acked s.dsp = true) : Nested (leaveInterrupt s) := by
  obtain ⟨rest, hstk⟩ := (topIs_iff _ _ _).1 htop
  have hlock := lock_eq_false_of_top hc hstk nofun
  have hdepth := h.depth_le
  have hbelow := h.below_unlocked
  rw [hstk, List.length_cons] at hdepth
  rw [hstk, List.tail_cons] at hbelow
  have hafter : leaveInterrupt s = s.withDsp { s.dsp with stk := rest } := by simp [leaveInterrupt, hstk]
  rw [hafter]
  exact { h with
    depth_le := show rest.length ≤ 2 by omega
    upper_more_urgent := by
      rintro a b rfl
      simp at hdepth
    below_unlocked := fun e he => hbelow e (List.mem_of_mem_tail he)
    top_locked := by
      rintro src' rest' rfl
      exact absurd rfl (hbelow ⟨src', .locked⟩ List.mem_cons_self)
    call_of_top := fun e rest' hl => absurd (hlock.symm.trans hl) nofun }

theorem nested_dspEffect {s : State} (hc : Consistent s) (h : Nested s) {k : DspStep} {src : Source}
    (hen : dspEnabled Config.prio k src s = true) : Nested (dspEffect k src s) := by
  cases k with
  | enter => exact nested_takeInterrupt hc h hen
  | lock => exact nested_lockStep h hen
  | ret => exact nested_returnStep h (Bool.and_eq_true_iff.1 hen).1
  | ack => exact nested_ackStep hc h hen
  | exit => exact nested_leaveInterrupt hc h hen

/-! ### The return of the encoder -/

theorem encLen_pos (c : Command) : 0 < Config.encLen c := Nat.succ_pos _

/-- A call of `tick()` counts a tick only while the count stays below the length (R175). -/
theorem ticks_below_len_encTick {es : EncState} {c : Command} {n : Nat}
    (h : encTick Config.encLen es = .transmitting c n) : n < Config.encLen c := by
  cases es with
  | idle => cases h
  | transmitting c' n' =>
    simp only [encTick] at h
    split at h
    · cases h; assumption
    · cases h

theorem ticks_below_len_encLoad {es : EncState} {c c' : Command} {n : Nat}
    (hes : ∀ c n, es = .transmitting c n → n < Config.encLen c) (h : encLoad c' es = .transmitting c n) :
    n < Config.encLen c := by
  cases es with
  | idle => cases h; exact encLen_pos c
  | transmitting c'' n' => exact hes c n h

theorem nested_encReturn {s : State} (h : Nested s) : Nested (encReturn s) := by
  rcases encReturn_cases s with ⟨-, e⟩ | ⟨hcall, e⟩ | ⟨hcall, e⟩ <;> rw [e]
  · exact h
  · exact { h with
      ret_in_call := fun _ => by simp [hcall]
      ticks_below_len := fun c n => ticks_below_len_encTick }
  · exact { h with
      ret_in_call := fun _ => by simp [hcall]
      ticks_below_len := fun c n => ticks_below_len_encLoad h.ticks_below_len }

/-! ### Every step -/

theorem runWord_dsp_enc {w : TxnWord} {s t : State} (h : runWord w s = .next t) : t.dsp = s.dsp ∧ t.enc = s.enc := by
  rcases runWord_cases h with ⟨i, -, hi⟩ | ⟨e, -, rfl⟩
  · obtain ⟨hdsp, henc, -⟩ := exec_frame hi
    exact ⟨hdsp, henc⟩
  · exact ⟨rfl, rfl⟩

theorem nested_runEvent {e : Event} {s t : State} (hc : Consistent s) (h : Nested s) (hstep : runEvent e s = .next t) :
    Nested t := by
  rcases runEvent_cases hstep with
    ⟨-, rfl⟩ | ⟨b, -, rfl⟩ | ⟨w, -, -, hw⟩ | ⟨k, src, -, hen, rfl⟩ | ⟨-, -, rfl⟩ | ⟨-, rfl⟩
  · exact h
  · exact nested_of_units h rfl rfl
  · obtain ⟨hdsp, henc⟩ := runWord_dsp_enc hw
    exact nested_of_units h hdsp henc
  · exact nested_dspEffect hc h hen
  · exact nested_encReturn h
  · exact nested_of_units nested_reset rfl rfl

/-- What is pending is enabled, and what is enabled is ready (R43 items 4 and 5). -/
theorem ready_of_pending {s : State} (hc : Consistent s) {src : Source} (h : pending src s = true) :
    s.drv.ready = true := by
  cases src with
  | ss => exact hc.ssen_ready (hc.sspend_ssen h)
  | ct => exact hc.cten_ready (hc.ctpend_cten h)

/-- `READY` falls at a reset only (R145). -/
theorem runEvent_keeps_ready {e : Event} {s t : State} (hstep : runEvent e s = .next t) (hready : s.drv.ready = true)
    (hreset : e ≠ .reset) : t.drv.ready = true := by
  rcases runEvent_cases hstep with
    ⟨-, rfl⟩ | ⟨b, -, rfl⟩ | ⟨w, -, -, hw⟩ | ⟨k, src, -, -, rfl⟩ | ⟨-, -, rfl⟩ | ⟨he, -⟩
  · exact hready
  · exact hready
  · rw [(runWord_car_of_ready hw hready).1]; exact hready
  · rw [(dspEffect_drv_car k src s).1]; exact hready
  · rw [(encReturn_drv_car s).1]; exact hready
  · exact absurd he hreset

/-- The steps after `ENTER` only act on a sequence that is active already. -/
theorem dspEffect_stk_ne_nil {k : DspStep} {src : Source} {s : State} (hk : k ≠ .enter)
    (h : (dspEffect k src s).dsp.stk ≠ []) : s.dsp.stk ≠ [] := by
  intro hnil
  apply h
  cases k with
  | enter => exact absurd rfl hk
  | lock => simp [dspEffect, hnil]
  | ret => rcases returnStep_cases src s with ⟨-, -, e⟩ | ⟨-, e⟩ <;> simp [dspEffect, e, hnil]
  | ack => simp [dspEffect, ackStep, hnil]
  | exit => simp [dspEffect, leaveInterrupt, hnil]

theorem activeOnlyWhenReady_runEvent {e : Event} {s t : State} (hc : Consistent s) (h : ActiveOnlyWhenReady s)
    (hstep : runEvent e s = .next t) : ActiveOnlyWhenReady t := by
  by_cases hreset : e = .reset
  · subst hreset
    cases hstep
    exact fun hstk => absurd rfl hstk
  refine fun hstk => runEvent_keeps_ready hstep ?_ hreset
  rcases runEvent_cases hstep with
    ⟨-, rfl⟩ | ⟨b, -, rfl⟩ | ⟨w, -, -, hw⟩ | ⟨k, src, -, hen, rfl⟩ | ⟨-, -, rfl⟩ | ⟨he, -⟩
  · exact h hstk
  · exact h hstk
  · exact h ((runWord_dsp_enc hw).1 ▸ hstk)
  · by_cases hk : k = .enter
    · subst hk
      exact ready_of_pending hc ((enterEnabled_iff _ _ _).1 hen).1
    · exact h (dspEffect_stk_ne_nil hk hstk)
  · rcases encReturn_cases s with ⟨-, e⟩ | ⟨-, e⟩ | ⟨-, e⟩ <;> rw [e] at hstk <;> exact h hstk
  · exact absurd he hreset

theorem nested_consume {s : State} (h : Nested s) : Nested (consume s) :=
  nested_of_units h (consume_dsp s) (consume_enc s)

theorem activeOnlyWhenReady_consume {s : State} (h : ActiveOnlyWhenReady s) : ActiveOnlyWhenReady (consume s) := by
  unfold ActiveOnlyWhenReady
  rwa [consume_dsp, consume_drv]

/-- Settles O58: `ENTER` pushes a strictly more urgent entry onto an unlocked stack, the later steps act on the top entry
alone, and every other step leaves dispatcher and encoder within the nesting. -/
theorem stepKeepsNested : Obligations.StepKeepsNested := by
  refine ⟨fun s t hc h hstep => ?_, fun s t hc h hstep => ?_⟩ <;> rw [step_eq] at hstep
  · exact nested_runEvent (consistent_consume hc) (nested_consume h) hstep
  · exact activeOnlyWhenReady_runEvent (consistent_consume hc) (activeOnlyWhenReady_consume h) hstep

end Sys2Proof.Machine

/-! PROOFS. The step: that it always completes, the transactions it runs and holds back, and when the encoder's state
changes. -/

namespace Sys2Proof.Machine

/-! ### The attempted step (R9, R10) -/

theorem step_of_enabled {s : State} (h : eventEnabled (nextEvent s) (consume s) = true) :
    step s = eventEffect (nextEvent s) (consume s) := by
  rw [step_eq, runEvent, if_pos h]

theorem step_of_disabled {s : State} (h : eventEnabled (nextEvent s) (consume s) = false) :
    step s = .next (consume s) := by
  rw [step_eq, runEvent, if_neg (by simp [h])]

/-- The effect of every agent's step is a next state. -/
theorem eventEffect_next (e : Event) (s : State) : ∃ t, eventEffect e s = .next t := by
  cases e with
  | txn w =>
    obtain ⟨u, hu, -⟩ := runWord_answered w s
    exact ⟨u, hu⟩
  | _ => exact ⟨_, rfl⟩

/-- Settles O12: a step that is not enabled leaves the state with the event consumed, an enabled one has an effect. -/
theorem everyStepCompletes : Obligations.EveryStepCompletes := by
  intro s
  cases h : eventEnabled (nextEvent s) (consume s) with
  | false => exact ⟨_, step_of_disabled h⟩
  | true => rw [step_of_enabled h]; exact eventEffect_next _ _

theorem consume_of_agenda {s : State} {e : Event} {rest : List Event} (h : s.agenda = e :: rest) :
    consume s = { s with rsp := none, started := .none, agenda := rest } := by
  simp only [consume, h, State.withPorts]

theorem consume_of_empty {s : State} (h : s.agenda = []) :
    consume s = { s with rsp := none, started := .none, envTime := s.envTime + 1 } := by
  obtain ⟨_, _, _, _, _, _, _, _, _, agenda, _⟩ := s
  obtain rfl : agenda = [] := h
  rfl

theorem step_of_txn {s : State} {t : TxnWord} (h : nextEvent s = .txn t) (hen : txnEnabled t (consume s) = true) :
    step s = runWord t (consume s) := by
  rw [step_of_enabled (by rwa [h]), h]
  rfl

theorem step_of_txn_disabled {s : State} {t : TxnWord} (h : nextEvent s = .txn t)
    (hen : txnEnabled t (consume s) = false) : step s = .next (consume s) :=
  step_of_disabled (by rwa [h])

/-- Settles O9: an enabled word is run by the port, and consuming reads the agenda, or else counts a free choice. -/
theorem stepRunsTheWord : Obligations.StepRunsTheWord := by
  refine ⟨fun s t h hen => ⟨fun i hi => ?_, fun e he => ?_⟩, fun s e rest h => ?_, fun s h => ?_⟩
  · rw [step_of_txn h hen, runWord_of_decode_ok hi]
  · rw [step_of_txn h hen, runWord_of_decode_error he]
  · exact ⟨nextEvent_of_agenda h, consume_of_agenda h⟩
  · exact ⟨nextEvent_of_empty h, consume_of_empty h⟩

/-! ### Who may issue a transaction (R11, R73, R172 to R174) -/

/-- Whether a word may be issued depends on the dispatcher and the encoder alone. -/
theorem txnEnabled_congr {s u : State} (hdsp : u.dsp = s.dsp) (henc : u.enc = s.enc) (t : TxnWord) :
    txnEnabled t u = txnEnabled t s := by
  simp only [txnEnabled, encMayIssue, hdsp, henc]

theorem txnEnabled_consume (t : TxnWord) (s : State) : txnEnabled t (consume s) = txnEnabled t s :=
  txnEnabled_congr (consume_dsp s) (consume_enc s) t

theorem txnEnabled_encoder {t : TxnWord} (h : rqOf t = .encoder) (s : State) : txnEnabled t s = encMayIssue t s := by
  simp [txnEnabled, h]

theorem step_of_held_back {s : State} {t : TxnWord} (h : nextEvent s = .txn t) (hen : ¬ txnEnabled t s = true) :
    step s = .next (consume s) :=
  step_of_txn_disabled h (by rwa [txnEnabled_consume, ← Bool.not_eq_true])

/-- Settles O11: each clause contradicts one condition of the issuer. -/
theorem agentsAreHeldBack : Obligations.AgentsAreHeldBack := by
  intro s t h
  refine ⟨fun hrq hstk => ?_, fun hrq hcall => ?_, fun hrq hcall hes => ?_, fun hrq hcall hes hwe haddr => ?_,
    fun hrq haddr => ?_⟩ <;> refine step_of_held_back h fun hen => ?_
  · exact hstk ((txnEnabled_host hrq s).1 hen)
  all_goals
    rw [txnEnabled_encoder hrq, encMayIssue_iff] at hen
    obtain ⟨hreg, hret, hissue⟩ := hen
  · rcases hcall with hcall | hcall
    · simp [hcall] at hissue
    · exact hcall hret
  · simp [hcall, hes] at hissue
  · have hwrites : writesWaveform t = true := by simpa [writesWaveform, hwe] using haddr
    simp [hcall, hes, hwrites] at hissue
  · rw [addressesRegister_iff] at hreg
    omega

/-! ### A placed word (log 7) -/

/-- In an open call the encoder may issue every word that addresses a register. -/
theorem encMayIssue_openCall {t : TxnWord} (h : addressesRegister t = true) (s : State) :
    encMayIssue t (openCall s) = true := by
  rw [encMayIssue_iff]
  refine ⟨h, rfl, ?_⟩
  by_cases hes : s.enc.es = .idle
  · simp [openCall, hes]
  · simp [openCall, hes]

theorem addressesRegister_of_decode {t : TxnWord} {i : Instr} (h : decode t = .ok i) : addressesRegister t = true := by
  obtain ⟨r, hr⟩ := regAt_of_decode h
  simp [addressesRegister, hr]

theorem letIssue_of_enabled {t : TxnWord} {s : State} (h : txnEnabled t s = true) : letIssue t s = s := by
  rw [letIssue, if_pos h]

/-- The issuer of an instruction may act once it has been let. -/
theorem txnEnabled_letIssue {t : TxnWord} {i : Instr} (hi : decode t = .ok i) (s : State) :
    txnEnabled t (letIssue t s) = true := by
  by_cases hen : txnEnabled t s = true
  · rwa [letIssue_of_enabled hen]
  · rw [letIssue, if_neg hen]
    cases hrq : rqOf t with
    | host => exact (txnEnabled_host hrq _).2 rfl
    | encoder =>
      rw [txnEnabled_encoder hrq]
      exact encMayIssue_openCall (addressesRegister_of_decode hi) s

/-- Settles O10: the placed word is the first of the agenda and its issuer may act, so the step is the port's answer. -/
theorem placedWordRunsNext : Obligations.PlacedWordRunsNext := by
  intro s nbits w i hi
  have hagenda : (s.withFetchWord nbits w).agenda = .txn (wordOfNat nbits w) :: s.agenda := rfl
  have hconsume := consume_of_agenda hagenda
  have hen : txnEnabled (wordOfNat nbits w) (consume (s.withFetchWord nbits w)) = true := by
    rw [txnEnabled_consume]
    exact txnEnabled_letIssue hi s
  obtain ⟨hdiv, hcar, hdrv, hss, hct, hes, -, -, -⟩ := letIssue_frame (wordOfNat nbits w) s
  refine ⟨consume (s.withFetchWord nbits w), ?_, ?_⟩
  · rw [step_of_txn (nextEvent_of_agenda hagenda) hen, runWord_of_decode_ok hi]
  · rw [hconsume]
    refine ⟨hdiv, hcar, hdrv, hss, hct, hes, rfl, rfl, rfl, fun hcan => ?_⟩
    simp only [State.withFetchWord, placeWord, letIssue_of_enabled hcan]
    rfl

/-! ### The encoder's state (R176) -/

/-- The dispatcher drives the encoder's argument and takes its return; it does not reach its state. -/
theorem dspEffect_es (k : DspStep) (src : Source) (s : State) : (dspEffect k src s).enc.es = s.enc.es := by
  cases k with
  | enter => rfl
  | lock => rfl
  | ret => rcases returnStep_cases src s with ⟨-, -, h⟩ | ⟨-, h⟩ <;> simp [dspEffect, h]
  | ack => cases src <;> rfl
  | exit => rfl

/-- Settles O43: of all steps only a reset and the encoder's return reach its state, and a rejected `load` keeps it. -/
theorem encoderStateChangesInCallsOnly : Obligations.EncoderStateChangesInCallsOnly := by
  intro s t hstep hne
  rw [step_eq] at hstep
  rw [← consume_enc s, ← consume_dsp s]
  rw [← consume_enc s] at hne
  rcases runEvent_cases hstep with
    ⟨-, rfl⟩ | ⟨b, -, rfl⟩ | ⟨w, -, -, hw⟩ | ⟨k, src, -, -, rfl⟩ | ⟨he, -, rfl⟩ | ⟨he, rfl⟩
  · exact absurd rfl hne
  · exact absurd rfl hne
  · exact absurd (by rw [(runWord_dsp_enc hw).2]) hne
  · exact absurd (dspEffect_es k src _) hne
  · rcases encReturn_cases (consume s) with ⟨-, e⟩ | ⟨hcall, e⟩ | ⟨hcall, e⟩ <;> rw [e] at hne ⊢
    · exact absurd rfl hne
    · exact .inr (.inl ⟨he, hcall, rfl⟩)
    · cases hes : (consume s).enc.es with
      | idle => exact .inr (.inr ⟨he, hcall, rfl, rfl⟩)
      | transmitting c n =>
        have hkept : encLoad (consume s).enc.arg (consume s).enc.es = (consume s).enc.es := by rw [hes]; rfl
        exact absurd hkept hne
  · exact .inl ⟨he, rfl⟩

end Sys2Proof.Machine

/-! PROOFS. The handler sequence: its five steps one by one, which requests may enter, a sequence stepped to its end, and
how long a transmission lasts. -/

namespace Sys2Proof.Machine

open Sys2Proof.Safety

/-! ### An attempted step of the dispatcher (R197) -/

theorem pending_congr {s u : State} (hss : u.ss = s.ss) (hct : u.ct = s.ct) (src : Source) :
    pending src u = pending src s := by
  cases src <;> simp only [pending, hss, hct]

/-- Whether a step is enabled depends on the stack, the lock, the pending flags and the encoder's return. -/
theorem dspEnabled_congr {s u : State} (hss : u.ss = s.ss) (hct : u.ct = s.ct) (hdsp : u.dsp = s.dsp)
    (hret : u.enc.ret = s.enc.ret) (prio : Source → Nat) (k : DspStep) (src : Source) :
    dspEnabled prio k src u = dspEnabled prio k src s := by
  cases k <;> simp only [dspEnabled, enterEnabled, hdsp, hret, pending_congr hss hct]

theorem dspEnabled_consume (prio : Source → Nat) (k : DspStep) (src : Source) (s : State) :
    dspEnabled prio k src (consume s) = dspEnabled prio k src s :=
  dspEnabled_congr (consume_ss s) (consume_ct s) (consume_dsp s) (by rw [consume_enc]) prio k src

theorem step_of_dsp {s : State} {k : DspStep} {src : Source} (h : nextEvent s = .dsp k src)
    (hen : dspEnabled Config.prio k src s = true) : step s = .next (dspEffect k src (consume s)) := by
  rw [step_of_enabled (by rwa [h, eventEnabled, dspEnabled_consume]), h]
  rfl

theorem step_of_dsp_disabled {s : State} {k : DspStep} {src : Source} (h : nextEvent s = .dsp k src)
    (hen : ¬ dspEnabled Config.prio k src s = true) : step s = .next (consume s) :=
  step_of_disabled (by rwa [h, eventEnabled, dspEnabled_consume, ← Bool.not_eq_true])

/-- The top entry is another one. -/
theorem not_topIs {src : Source} {ph : Phase} {d : Dispatcher} (h : ∀ rest, d.stk ≠ ⟨src, ph⟩ :: rest) :
    ¬ topIs src ph d = true := by
  rw [topIs_iff]
  rintro ⟨rest, hstk⟩
  exact h rest hstk

theorem topIs_of_stk {src : Source} {ph : Phase} {d : Dispatcher} {rest : List Entry} (h : d.stk = ⟨src, ph⟩ :: rest) :
    topIs src ph d = true := (topIs_iff _ _ _).2 ⟨rest, h⟩

/-! ### `ENTER` (R198) -/

theorem not_mem_sources_iff (src : Source) (l : List Entry) : src ∉ l.map (·.src) ↔ ∀ e ∈ l, e.src ≠ src := by
  simp

theorem takeInterrupt_eq (src : Source) (s : State) :
    takeInterrupt src s = { s with dsp := { s.dsp with stk := ⟨src, .entered⟩ :: s.dsp.stk } } := rfl

/-- Settles O44: the four conditions are those of `enterEnabled`, and the effect is `takeInterrupt`. -/
theorem enterStep : Obligations.EnterStep := by
  intro s src h
  simp only [← not_mem_sources_iff, ← enterEnabled_iff]
  refine ⟨fun hen => ?_, fun hen => step_of_dsp_disabled h hen⟩
  rw [step_of_dsp h hen, dspEffect, takeInterrupt_eq, consume_dsp]

/-! ### `LOCK` (R199) -/

theorem callOf_eq (src : Source) : callOf src = if src = .ss then .tick else .load := by
  cases src <;> rfl

/-- The call that `LOCK` starts is signalled on the port of its kind, with the command for `load`. -/
theorem lockStep_ports (src : Source) (s : State) :
    encTickPort (lockStep src s) = decide (src = .ss) ∧
      encLoadPort (lockStep src s) = if src = .ct then some s.ct.cmdval else none := by
  cases src <;> exact ⟨rfl, rfl⟩

/-- Settles O45: the effect is `lockStep`, and no phase but the critical section holds the lock. -/
protected theorem Handler.lockStep : Obligations.LockStep := by
  intro s src h
  refine ⟨fun rest hstk => ⟨lockStep src (consume s), step_of_dsp h (topIs_of_stk hstk), ?_, ?_, ?_, ?_, fun hc => ?_⟩,
    fun hstk => step_of_dsp_disabled h (not_topIs hstk)⟩
  · rw [lockStep_dsp, consume_dsp, hstk, setTopPhase_cons, callOf_eq]
  · exact (lockStep_ports src _).1
  · rw [(lockStep_ports src _).2, consume_ct]
  · rw [← consume_enc s]
    rfl
  · exact lock_eq_false_of_top hc hstk nofun

/-! ### `RETURN` (R200) -/

/-- Settles O46: the effect is `returnStep`, whose two cases are the report of an `EncoderBusy` and its absence. -/
protected theorem Handler.returnStep : Obligations.ReturnStep := by
  intro s src h
  refine ⟨fun rest r hstk hret => ?_, fun hoff => step_of_dsp_disabled h fun hen => ?_⟩
  · have hen : dspEnabled Config.prio .ret src s = true := by
      simp [dspEnabled, topIs_of_stk hstk, hret]
    refine ⟨returnStep src (consume s), step_of_dsp h hen, ?_⟩
    rcases returnStep_cases src (consume s) with ⟨hsrc, hbusy, e⟩ | ⟨hno, e⟩
    · rw [consume_enc, hret, Option.some.injEq] at hbusy
      rw [e]
      refine ⟨by simp [hstk], fun _ _ => by simp [saturatingSucc], fun hno => absurd ⟨hsrc, hbusy⟩ hno, ?_⟩
      rw [← consume_enc s]
      rfl
    · rw [consume_enc, hret, Option.some.injEq] at hno
      rw [e]
      refine ⟨by simp [hstk], fun hsrc hbusy => absurd ⟨hsrc, hbusy⟩ hno, fun _ => by simp, ?_⟩
      rw [← consume_enc s]
      rfl
  · simp only [dspEnabled, Bool.and_eq_true] at hen
    obtain ⟨htop, hsome⟩ := hen
    rcases hoff with hstk | hnone
    · exact not_topIs hstk htop
    · simp [hnone] at hsome

/-! ### `ACK` and `EXIT` (R201, R202) -/

/-- Settles O47: the effects are `ackStep`, by source, and `leaveInterrupt`. -/
theorem ackAndExitSteps : Obligations.AckAndExitSteps := by
  refine ⟨fun s src h => ⟨fun rest hstk => ?_, fun hstk => step_of_dsp_disabled h (not_topIs hstk)⟩,
    fun s src h => ⟨fun rest hstk => ?_, fun hstk => step_of_dsp_disabled h (not_topIs hstk)⟩⟩
  · rw [step_of_dsp h (topIs_of_stk hstk), dspEffect, ackStep, consume_dsp, hstk, setTopPhase_cons]
    cases src with
    | ss => rw [clearPending, consume_ss]; rfl
    | ct => rw [clearPending, consume_ct]; rfl
  · rw [step_of_dsp h (topIs_of_stk hstk), dspEffect, leaveInterrupt, consume_dsp, hstk]
    rfl

/-! ### Simultaneous requests and preemption (R204) -/

theorem other_ne (src : Source) : other src ≠ src := by
  cases src <;> nofun

theorem other_other (src : Source) : other (other src) = src := by
  cases src <;> rfl

/-- Settles O49: with the stack known, the conditions of R198 leave one comparison of the priorities. -/
theorem requestsAndPreemption : Obligations.RequestsAndPreemption := by
  intro prio s a hpos
  refine ⟨fun hstk hss hct => ?_, fun ph hstk hlock hpend => ?_, fun e he hsrc => ?_⟩
  · have hpend : ∀ src, pending src s = true := fun src => by cases src <;> assumption
    rw [enterEnabled_iff, currentPriority_host prio _ hstk]
    simpa [hpend, hstk] using fun _ => Nat.succ_le_iff.1 (hpos a)
  · rw [enterEnabled_iff, currentPriority_unlocked prio hstk hlock]
    simp [hpend, hstk, other_other, other_ne a]
  · refine Bool.eq_false_iff.2 fun hen => ?_
    obtain ⟨-, hnot, -⟩ := (enterEnabled_iff prio a s).1 hen
    exact (not_mem_sources_iff a _).1 hnot e he hsrc

/-! ### A transmission (R172, R173, R175) -/

theorem iterate_encTick {len : Command → Nat} {c : Command} {n : Nat} (h : n < len c) :
    (encTick len)^[n] (encLoad c .idle) = .transmitting c n := by
  induction n with
  | zero => rfl
  | succ n ih => rw [Function.iterate_succ_apply', ih (by omega), encTick, if_pos h]

/-- Settles O42: the ticks are counted up to the length, and the last of them ends the transmission. -/
theorem transmissionEnds : Obligations.TransmissionEnds := by
  refine ⟨fun len c hpos => ⟨fun n => iterate_encTick, ?_⟩, encLen_pos, fun c c' n => ⟨rfl, rfl, rfl⟩, fun len => rfl⟩
  obtain ⟨n, hn⟩ := Nat.exists_eq_add_of_lt hpos
  rw [Nat.zero_add] at hn
  rw [hn, Function.iterate_succ_apply', iterate_encTick (by omega), encTick, if_neg (by omega)]

end Sys2Proof.Machine

/-! PROOFS. A handler sequence stepped to its end: the six steps from `ENTER` to `EXIT`, and what is left after them. -/

namespace Sys2Proof.Machine

open Sys2Proof.Safety

/-! ### What the encoder's call does (R172, R173, R183) -/

/-- `ES` after the call that the handler of a source makes. -/
def esAfterCall (src : Source) (s : State) : EncState :=
  match src with
  | .ss => encTick Config.encLen s.enc.es
  | .ct => encLoad s.ct.cmdval s.enc.es

/-- What that call returns. -/
def callResult (src : Source) (s : State) : EncResult :=
  match src with
  | .ss => .ok
  | .ct => encLoadResult s.enc.es

/-- The trigger once that result is reported. -/
def ctAfterCall (src : Source) (s : State) : CtUnit :=
  if src = .ct ∧ callResult src s = .encoderBusy then
    { s.ct with busyerr := true, busycnt := saturatingSucc s.ct.busycnt }
  else s.ct

/-! ### A sequence between two of its steps -/

/-- The dispatcher of `s` with the sequence of `src` on top in the given phase: the critical section holds the lock and
has a call in progress, the other phases neither (R197). -/
def sequenceDsp (s : State) (src : Source) (ph : Phase) : Dispatcher :=
  ⟨⟨src, ph⟩ :: s.dsp.stk, decide (ph = .locked), if ph = .locked then callOf src else .none⟩

/-- `u` is `s` with the sequence of `src` on top, in the given phase, with the rest `es` of the agenda still to come; the
trigger and the encoder are as given, and no other unit has changed. -/
structure InSequence (s : State) (src : Source) (ph : Phase) (es : List Event) (ct : CtUnit) (enc : Encoder)
    (u : State) : Prop where
  agenda : u.agenda = es
  dsp : u.dsp = sequenceDsp s src ph
  div : u.div = s.div
  car : u.car = s.car
  drv : u.drv = s.drv
  ss : u.ss = s.ss
  ct : u.ct = ct
  enc : u.enc = enc

variable {s u : State} {src : Source} {ph : Phase} {es : List Event} {ct : CtUnit} {enc : Encoder}

theorem InSequence.consume {e : Event} (h : InSequence s src ph (e :: es) ct enc u) :
    nextEvent u = e ∧ InSequence s src ph es ct enc (consume u) := by
  refine ⟨nextEvent_of_agenda h.agenda, ?_⟩
  rw [consume_of_agenda h.agenda]
  exact { h with agenda := rfl }

theorem InSequence.topIs (h : InSequence s src ph es ct enc u) : topIs src ph u.dsp = true := by
  rw [h.dsp]
  exact topIs_of_stk rfl

theorem inSequence_enter (hlock : s.dsp.lock = false) (hcall : s.dsp.call = .none)
    (hen : enterEnabled Config.prio src s = true) :
    ∃ u, step (withAgenda s (.dsp .enter src :: es)) = .next u ∧ InSequence s src .entered es s.ct s.enc u := by
  have hagenda : (withAgenda s (.dsp .enter src :: es)).agenda = .dsp .enter src :: es := rfl
  have hen' : dspEnabled Config.prio .enter src (withAgenda s (.dsp .enter src :: es)) = true :=
    (dspEnabled_congr rfl rfl rfl rfl Config.prio .enter src).trans hen
  refine ⟨_, step_of_dsp (nextEvent_of_agenda hagenda) hen', ?_⟩
  rw [consume_of_agenda hagenda]
  have hdsp : takeInterrupt src s = s.withDsp (sequenceDsp s src .entered) := by
    simp [takeInterrupt, sequenceDsp, hlock, hcall]
  exact ⟨rfl, congrArg State.dsp hdsp, rfl, rfl, rfl, rfl, rfl, rfl⟩

theorem InSequence.lock_next (h : InSequence s src .entered (.dsp .lock src :: es) s.ct enc u) :
    ∃ v, step u = .next v ∧ InSequence s src .locked es s.ct
      { enc with arg := if src = .ct then s.ct.cmdval else enc.arg, ret := none } v := by
  obtain ⟨hnext, hu⟩ := h.consume
  refine ⟨_, step_of_dsp hnext h.topIs, ?_⟩
  exact { hu with
    dsp := by simp [dspEffect, h.dsp, sequenceDsp]
    enc := by simp [dspEffect, h.enc, h.ct] }

theorem InSequence.encReturn_next (h : InSequence s src .locked (.encReturn :: es) s.ct enc u)
    (hret : enc.ret = none) (harg : src = .ct → enc.arg = s.ct.cmdval) (hes : enc.es = s.enc.es) :
    ∃ v, step u = .next v ∧ InSequence s src .locked es s.ct
      { enc with es := esAfterCall src s, ret := some (callResult src s) } v := by
  obtain ⟨hnext, hu⟩ := h.consume
  have hcall : (Machine.consume u).dsp.call = callOf src := by rw [hu.dsp]; rfl
  have hen : eventEnabled (nextEvent u) (Machine.consume u) = true := by
    rw [hnext, eventEnabled, encReturnEnabled, hcall, hu.enc, hret]
    cases src <;> rfl
  refine ⟨encReturn (Machine.consume u), by rw [step_of_enabled hen, hnext]; rfl, ?_⟩
  rw [encReturn, hcall]
  cases src with
  | ss =>
    exact { hu with enc := by simp [callOf, h.enc, hes, esAfterCall, callResult] }
  | ct =>
    exact { hu with enc := by simp [callOf, h.enc, hes, harg, esAfterCall, callResult] }

theorem InSequence.ret_next (h : InSequence s src .locked (.dsp .ret src :: es) s.ct enc u)
    (hret : enc.ret = some (callResult src s)) :
    ∃ v, step u = .next v ∧ InSequence s src .returned es (ctAfterCall src s) { enc with ret := none } v := by
  obtain ⟨hnext, hu⟩ := h.consume
  have hen : dspEnabled Config.prio .ret src u = true := by simp [dspEnabled, h.topIs, h.enc, hret]
  refine ⟨returnStep src (Machine.consume u), step_of_dsp hnext hen, ?_⟩
  have hunlock : InSequence s src .returned es s.ct { enc with ret := none } (unlock (Machine.consume u)) := { hu with
    dsp := by simp [h.dsp, sequenceDsp]
    enc := by simp [h.enc] }
  rcases returnStep_cases src (Machine.consume u) with ⟨hsrc, hbusy, e⟩ | ⟨hno, e⟩
  · rw [hu.enc, hret, Option.some.injEq] at hbusy
    rw [e, ctAfterCall, if_pos ⟨hsrc, hbusy⟩]
    exact { hunlock with ct := by simp [h.ct] }
  · rw [hu.enc, hret, Option.some.injEq] at hno
    rw [e, ctAfterCall, if_neg hno]
    exact hunlock

/-- The two steps after the lock is released clear the flag and give the dispatcher back. -/
theorem InSequence.ack_exit (hlock : s.dsp.lock = false) (hcall : s.dsp.call = .none)
    (h : InSequence s src .returned [.dsp .ack src, .dsp .exit src] ct enc u) :
    ∃ v w, step u = .next v ∧ step v = .next w ∧ w.dsp = s.dsp ∧ w.div = s.div ∧ w.car = s.car ∧ w.drv = s.drv ∧
      w.enc = enc ∧ (src = .ss → w.ss = { s.ss with sspend := false } ∧ w.ct = ct) ∧
      (src = .ct → w.ss = s.ss ∧ w.ct = { ct with ctpend := false }) := by
  obtain ⟨hnext, hu⟩ := h.consume
  have hdsp : (ackStep src (Machine.consume u)).dsp = ⟨⟨src, .acked⟩ :: s.dsp.stk, s.dsp.lock, s.dsp.call⟩ := by
    simp [ackStep, h.dsp, sequenceDsp, hlock, hcall]
  have hagenda : (ackStep src (Machine.consume u)).agenda = [.dsp .exit src] := by
    rw [← hu.agenda]
    exact dspEffect_agenda .ack src _
  have htop : Machine.topIs src .acked (ackStep src (Machine.consume u)).dsp = true := by
    rw [hdsp]
    exact topIs_of_stk rfl
  refine ⟨ackStep src (Machine.consume u), leaveInterrupt (Machine.consume (ackStep src (Machine.consume u))),
    step_of_dsp hnext h.topIs, step_of_dsp (nextEvent_of_agenda hagenda) htop, ?_⟩
  rw [leaveInterrupt, consume_dsp, hdsp]
  rcases clearPending_cases src (Machine.consume u) with ⟨rfl, e⟩ | ⟨rfl, e⟩ <;>
    simp [ackStep, e, h.div, h.car, h.drv, h.ss, h.ct, h.enc]

/-! ### The whole sequence -/

/-- What the six steps leave of the state they started in. -/
theorem run_sequence (hc : Consistent s) (hen : enterEnabled Config.prio src s = true) :
    ∃ v, Sys2Proof.core.run 6 (withAgenda s [.dsp .enter src, .dsp .lock src, .encReturn, .dsp .ret src, .dsp .ack src,
        .dsp .exit src]) = .next v ∧ v.dsp = s.dsp ∧ v.div = s.div ∧ v.car = s.car ∧ v.drv = s.drv ∧
      v.enc.es = esAfterCall src s ∧
      (src = .ss → v.ss = { s.ss with sspend := false } ∧ v.ct = ctAfterCall src s) ∧
      (src = .ct → v.ss = s.ss ∧ v.ct = { ctAfterCall src s with ctpend := false }) := by
  have hlock := lock_eq_false_of_enterEnabled hc hen
  have hcall : s.dsp.call = .none := not_ne_iff.1 (mt hc.call_iff.1 (by simp [hlock]))
  obtain ⟨u1, e1, h1⟩ := inSequence_enter hlock hcall hen
  obtain ⟨u2, e2, h2⟩ := h1.lock_next
  obtain ⟨u3, e3, h3⟩ := h2.encReturn_next rfl (fun hsrc => if_pos hsrc) rfl
  obtain ⟨u4, e4, h4⟩ := h3.ret_next rfl
  obtain ⟨u5, v, e5, e6, hdsp, hdiv, hcar, hdrv, henc, hss, hct⟩ := h4.ack_exit hlock hcall
  refine ⟨v, ?_, hdsp, hdiv, hcar, hdrv, by rw [henc], hss, hct⟩
  rw [run_of_step e1, run_of_step e2, run_of_step e3, run_of_step e4, run_of_step e5, run_of_step e6]
  rfl

/-- Settles O50: the flag of the source is clear and the other's is kept; a busy encoder is counted, a `load` from
`Idle` is not. -/
theorem handlerSequenceRunsToItsEnd : Obligations.HandlerSequenceRunsToItsEnd := by
  intro s src hc hen
  obtain ⟨v, hrun, hdsp, hdiv, hcar, hdrv, hes, hss, hct⟩ := run_sequence hc hen
  refine ⟨v, hrun, hdsp, ?_⟩
  cases src with
  | ss =>
    obtain ⟨hvss, hvct⟩ := hss rfl
    simp [pending, other, hvss, hvct, hdiv, hcar, hdrv, hes, ctAfterCall, esAfterCall]
  | ct =>
    obtain ⟨hvss, hvct⟩ := hct rfl
    cases hidle : s.enc.es <;>
      simp [pending, other, hvss, hvct, hdiv, hcar, hdrv, hes, ctAfterCall, esAfterCall, callResult, encLoad,
        encLoadResult, hidle]

end Sys2Proof.Machine

/-! PROOFS. Weakly fair runs: the rule that leads from one situation to the next, the release of a lock that is held, and
the end of a sequence that cannot be preempted. -/

namespace Sys2Proof.Machine

open Sys2Proof.Safety

/-! ### Runs (R10, R12) -/

variable {env : Nat → Event} {r : Nat → State}

/-- The state in which the step of the n-th moment is attempted: the state of that moment with its outputs cleared. -/
def attempted (s : State) : State := { s with started := .none }.withPorts none [] s.envTime

theorem run_step (h : Run env r) (n : Nat) : runEvent (env n) (attempted (r n)) = .next (r (n + 1)) := h n

theorem eventEnabled_attempted (e : Event) (s : State) : eventEnabled e (attempted s) = eventEnabled e s :=
  eventEnabled_ports e s none .none [] s.envTime

theorem consistent_along_run (h : Run env r) (h0 : Consistent (r 0)) (n : Nat) : Consistent (r n) := by
  induction n with
  | zero => exact h0
  | succ n ih =>
    have hc : Consistent (attempted (r n)) := consistent_of_units ih rfl rfl rfl rfl rfl
    exact consistent_runEvent hc (run_step h n)

theorem nested_along_run (h : Run env r) (h0 : Consistent (r 0)) (hn0 : Nested (r 0)) (n : Nat) : Nested (r n) := by
  induction n with
  | zero => exact hn0
  | succ n ih =>
    have hc : Consistent (attempted (r n)) := consistent_of_units (consistent_along_run h h0 n) rfl rfl rfl rfl rfl
    exact nested_runEvent hc (nested_of_units ih rfl rfl) (run_step h n)

theorem next_of_takes {A : Event → Prop} (h : Run env r) {n : Nat} (ht : takes A env r n) :
    eventEffect (env n) (attempted (r n)) = .next (r (n + 1)) := by
  obtain ⟨-, hen⟩ := ht
  have hstep := run_step h n
  rwa [runEvent, eventEnabled_attempted, if_pos hen] at hstep

theorem next_of_takes_dsp (h : Run env r) {n : Nat} {k : DspStep} {src : Source}
    (ht : takes (fun e => e = .dsp k src) env r n) : r (n + 1) = dspEffect k src (attempted (r n)) := by
  have heffect := next_of_takes h ht
  rw [ht.1] at heffect
  exact (Host.Outcome.next.inj heffect).symm

theorem next_of_takes_encReturn (h : Run env r) {n : Nat} (ht : takes (fun e => e = .encReturn) env r n) :
    r (n + 1) = encReturn (attempted (r n)) := by
  have heffect := next_of_takes h ht
  rw [ht.1] at heffect
  exact (Host.Outcome.next.inj heffect).symm

/-! ### Leading from one situation to the next -/

/-- What holds until `Q` does holds at every later moment, or `Q` has come. -/
theorem holds_or_reached {P Q : State → Prop} (hstay : ∀ j, P (r j) → P (r (j + 1)) ∨ Q (r (j + 1))) {n m : Nat}
    (hnm : n ≤ m) (hn : P (r n)) : P (r m) ∨ ∃ j, n ≤ j ∧ Q (r j) := by
  induction m, hnm using Nat.le_induction with
  | base => exact .inl hn
  | succ m hnm ih =>
    rcases ih with hP | hQ
    · exact (hstay m hP).imp_right fun h => ⟨m + 1, by omega, h⟩
    · exact .inr hQ

/-- The rule of weak fairness: where `P` holds until `Q` does, keeps a step of the kind `A` enabled, and that step leads
to `Q`, `Q` comes. -/
theorem FairFor.leads_to {A : Event → Prop} {P Q : State → Prop} (hfair : FairFor A env r)
    (hstay : ∀ j, P (r j) → P (r (j + 1)) ∨ Q (r (j + 1))) (hcan : ∀ j, P (r j) → canTake A (r j))
    (htake : ∀ j, P (r j) → takes A env r j → Q (r (j + 1))) {n : Nat} (hn : P (r n)) : ∃ m, n ≤ m ∧ Q (r m) := by
  by_contra hnever
  have hP : ∀ m, n ≤ m → P (r m) := fun m hnm => (holds_or_reached hstay hnm hn).resolve_right hnever
  obtain ⟨m, hnm, ht⟩ := hfair n fun m hnm => hcan m (hP m hnm)
  exact hnever ⟨m + 1, by omega, htake m (hP m hnm) ht⟩

/-! ### What a step can do to the top of the stack (R197, R203) -/

/-- The step that a sequence in a given phase waits for. -/
def stepAfter (ph : Phase) : DspStep :=
  match ph with
  | .entered => .lock
  | .locked => .ret
  | .returned => .ack
  | .acked => .exit

/-- The stack once that step is taken by the sequence on top. -/
def stkAfter (src : Source) (ph : Phase) (rest : List Entry) : List Entry :=
  match ph with
  | .entered => ⟨src, .locked⟩ :: rest
  | .locked => ⟨src, .returned⟩ :: rest
  | .returned => ⟨src, .acked⟩ :: rest
  | .acked => rest

variable {s t : State} {src : Source} {ph : Phase} {rest : List Entry}

/-- The one step after `ENTER` that is enabled is the one the top entry waits for. -/
theorem dspEnabled_top (hstk : s.dsp.stk = ⟨src, ph⟩ :: rest) {k : DspStep} {src' : Source} (hk : k ≠ .enter)
    (hen : dspEnabled Config.prio k src' s = true) : src' = src ∧ k = stepAfter ph := by
  have htop : ∀ {ph'}, topIs src' ph' s.dsp = true → src' = src ∧ ph' = ph := fun h => by
    obtain ⟨rest', hstk'⟩ := (topIs_iff _ _ _).1 h
    rw [hstk] at hstk'
    cases hstk'
    exact ⟨rfl, rfl⟩
  cases k with
  | enter => exact absurd rfl hk
  | lock => obtain ⟨rfl, rfl⟩ := htop hen; exact ⟨rfl, rfl⟩
  | ret => obtain ⟨rfl, rfl⟩ := htop (Bool.and_eq_true_iff.1 hen).1; exact ⟨rfl, rfl⟩
  | ack => obtain ⟨rfl, rfl⟩ := htop hen; exact ⟨rfl, rfl⟩
  | exit => obtain ⟨rfl, rfl⟩ := htop hen; exact ⟨rfl, rfl⟩

theorem returnStep_dsp (src : Source) (s : State) :
    (returnStep src s).dsp = ⟨setTopPhase .returned s.dsp.stk, false, .none⟩ := by
  rcases returnStep_cases src s with ⟨-, -, e⟩ | ⟨-, e⟩ <;> rw [e] <;> rfl

theorem stk_of_stepAfter (hstk : s.dsp.stk = ⟨src, ph⟩ :: rest) :
    (dspEffect (stepAfter ph) src s).dsp.stk = stkAfter src ph rest := by
  cases ph with
  | entered => simp [stepAfter, dspEffect, stkAfter, hstk]
  | locked => simp [stepAfter, dspEffect, stkAfter, hstk, returnStep_dsp]
  | returned => simp [stepAfter, dspEffect, stkAfter, hstk, ackStep]
  | acked => simp [stepAfter, dspEffect, stkAfter, hstk, leaveInterrupt]

theorem eq_other_of_ne {src src' : Source} (h : src' ≠ src) : src' = other src := by
  cases src' <;> cases src <;> simp_all [other]

/-- A source that is not more urgent than the top entry does not enter. -/
theorem enterEnabled_of_urgent_top (hc : Consistent s) (hprio : Config.prio (other src) ≤ Config.prio src)
    (hstk : s.dsp.stk = ⟨src, ph⟩ :: rest) (src' : Source) : enterEnabled Config.prio src' s = false := by
  refine Bool.eq_false_iff.2 fun hen => ?_
  have hlock := lock_eq_false_of_enterEnabled hc hen
  obtain ⟨-, hnot, habove, -⟩ := (enterEnabled_iff Config.prio src' s).1 hen
  rw [currentPriority_unlocked Config.prio hstk hlock] at habove
  have hne : src' ≠ src := fun h => hnot (by simp [hstk, h])
  obtain rfl := eq_other_of_ne hne
  exact absurd hprio (Nat.not_le.2 habove)

theorem encReturn_dsp (s : State) : (encReturn s).dsp = s.dsp := by
  rcases encReturn_cases s with ⟨-, e⟩ | ⟨-, e⟩ | ⟨-, e⟩ <;> rw [e] <;> rfl

/-- Where nothing can enter, a step keeps the stack, or moves the top sequence one phase on, or is a reset. -/
theorem stk_of_runEvent (hstk : s.dsp.stk = ⟨src, ph⟩ :: rest) (henter : ∀ src', enterEnabled Config.prio src' s = false)
    {e : Event} (hstep : runEvent e s = .next t) :
    t.dsp = s.dsp ∨ (e = .dsp (stepAfter ph) src ∧ t = dspEffect (stepAfter ph) src s) ∨ t.dsp = State.reset.dsp := by
  rcases runEvent_cases hstep with
    ⟨-, rfl⟩ | ⟨b, -, rfl⟩ | ⟨w, -, -, hw⟩ | ⟨k, src', rfl, hen, rfl⟩ | ⟨-, -, rfl⟩ | ⟨-, rfl⟩
  · exact .inl rfl
  · exact .inl rfl
  · exact .inl (runWord_dsp_enc hw).1
  · by_cases hk : k = .enter
    · subst hk
      exact absurd hen (by rw [dspEnabled, henter]; nofun)
    · obtain ⟨rfl, rfl⟩ := dspEnabled_top hstk hk hen
      exact .inr (.inl ⟨rfl, rfl⟩)
  · exact .inl (encReturn_dsp s)
  · exact .inr (.inr rfl)

/-! ### The release of the lock (R200) -/

/-- The lock is held by the sequence of `src`; `returned` says whether its encoder call has returned. -/
structure Holds (src : Source) (rest : List Entry) (returned : Bool) (s : State) : Prop where
  stk : s.dsp.stk = ⟨src, .locked⟩ :: rest
  lock : s.dsp.lock = true
  ret : s.enc.ret.isSome = returned

/-- A signalled return is still to be taken. -/
theorem Holds.encReturn (h : Holds src rest false s) (hcall : s.dsp.call ≠ .none) :
    Holds src rest true (encReturn s) := by
  rcases encReturn_cases s with ⟨hnone, -⟩ | ⟨-, e⟩ | ⟨-, e⟩
  · exact absurd hnone hcall
  · rw [e]; exact ⟨h.stk, h.lock, rfl⟩
  · rw [e]; exact ⟨h.stk, h.lock, rfl⟩

/-- While the lock is held, only the encoder's return, `RETURN` and a reset move the sequence on. -/
theorem Holds.runEvent {b : Bool} (h : Holds src rest b s) {e : Event} (hstep : runEvent e s = .next t) :
    Holds src rest b t ∨ (b = false ∧ Holds src rest true t) ∨ t.dsp.lock = false := by
  have henter := enterEnabled_of_locked Config.prio (by simp [h.stk]) h.lock
  rcases runEvent_cases hstep with
    ⟨-, rfl⟩ | ⟨b, -, rfl⟩ | ⟨w, -, -, hw⟩ | ⟨k, src', rfl, hen, rfl⟩ | ⟨-, hen, rfl⟩ | ⟨-, rfl⟩
  · exact .inl h
  · exact .inl ⟨h.stk, h.lock, h.ret⟩
  · obtain ⟨hdsp, henc⟩ := runWord_dsp_enc hw
    exact .inl ⟨hdsp ▸ h.stk, hdsp ▸ h.lock, henc ▸ h.ret⟩
  · by_cases hk : k = .enter
    · subst hk
      exact absurd hen (by rw [dspEnabled, henter]; nofun)
    · obtain ⟨-, rfl⟩ := dspEnabled_top h.stk hk hen
      exact .inr (.inr (by rw [stepAfter, dspEffect, returnStep_dsp]))
  · simp only [encReturnEnabled, Bool.and_eq_true, bne_iff_ne, Option.isNone_iff_eq_none] at hen
    obtain ⟨hcall, hret⟩ := hen
    obtain rfl : b = false := by rw [← h.ret, hret]; rfl
    exact .inr (.inl ⟨rfl, h.encReturn hcall⟩)
  · exact .inr (.inr rfl)

theorem Holds.run_step (hrun : Run env r) {b : Bool} {n : Nat} (h : Holds src rest b (r n)) :
    Holds src rest b (r (n + 1)) ∨ (b = false ∧ Holds src rest true (r (n + 1))) ∨ (r (n + 1)).dsp.lock = false := by
  have h' : Holds src rest b (attempted (r n)) := ⟨h.stk, h.lock, h.ret⟩
  exact h'.runEvent (Machine.run_step hrun n)

/-- The encoder's call returns (R174). -/
theorem call_returns (hrun : Run env r) (h0 : Consistent (r 0)) (hfair : EncoderFair env r) {n : Nat}
    (hn : Holds src rest false (r n)) :
    ∃ m, n ≤ m ∧ (Holds src rest true (r m) ∨ (r m).dsp.lock = false) := by
  have hcall : ∀ {j}, Holds src rest false (r j) → (r j).dsp.call ≠ .none := fun {j} h =>
    (consistent_along_run hrun h0 j).call_iff.2 h.lock
  refine FairFor.leads_to hfair (P := Holds src rest false)
    (Q := fun s => Holds src rest true s ∨ s.dsp.lock = false) (fun j h => ?_) (fun j h => ?_) (fun j h ht => ?_) hn
  · exact (h.run_step hrun).imp_right fun hq => hq.imp_left fun hret => hret.2
  · have hret : (r j).enc.ret.isNone = true := by simpa using h.ret
    exact ⟨.encReturn, rfl, by simp [eventEnabled, encReturnEnabled, hcall h, hret]⟩
  · have h' : Holds src rest false (attempted (r j)) := ⟨h.stk, h.lock, h.ret⟩
    rw [next_of_takes_encReturn hrun ht]
    exact .inl (h'.encReturn (hcall h))

/-- `RETURN` takes what has been signalled. -/
theorem lock_released (hrun : Run env r) (hfair : DispatcherFair env r) {n : Nat} (hn : Holds src rest true (r n)) :
    ∃ m, n ≤ m ∧ (r m).dsp.lock = false := by
  refine FairFor.leads_to (hfair .ret src) (P := Holds src rest true) (Q := fun s => s.dsp.lock = false)
    (fun j h => ?_) (fun j h => ?_) (fun j h ht => ?_) hn
  · rcases h.run_step hrun with h | ⟨hb, -⟩ | h
    · exact .inl h
    · cases hb
    · exact .inr h
  · exact ⟨.dsp .ret src, rfl, by simp [eventEnabled, dspEnabled, topIs_of_stk h.stk, h.ret]⟩
  · rw [next_of_takes_dsp hrun ht, dspEffect, returnStep_dsp]

/-- Settles O59: the encoder returns and `RETURN` takes it, unless a reset has freed the lock before. -/
theorem heldLockIsReleased : Obligations.HeldLockIsReleased := by
  intro env r hrun h0 henc hdsp n hlock
  obtain ⟨src, rest, hstk⟩ := (consistent_along_run hrun h0 n).lock_top hlock
  have hholds : Holds src rest (r n).enc.ret.isSome (r n) := ⟨hstk, hlock, rfl⟩
  cases hret : (r n).enc.ret.isSome <;> rw [hret] at hholds
  · obtain ⟨m, hnm, hm | hm⟩ := call_returns hrun h0 henc hholds
    · obtain ⟨m', hmm', hm'⟩ := lock_released hrun hdsp hm
      exact ⟨m', hnm.trans hmm', hm'⟩
    · exact ⟨m, hnm, hm⟩
  · exact lock_released hrun hdsp hholds

/-! ### The end of a sequence that cannot be preempted (R206) -/

/-- The sequence on top has moved one phase on, or a reset has emptied the stack. -/
def MovedOn (src : Source) (ph : Phase) (rest : List Entry) (s : State) : Prop :=
  s.dsp.stk = stkAfter src ph rest ∨ s.dsp.stk = []

theorem stays_or_movedOn (hrun : Run env r) (h0 : Consistent (r 0)) (hprio : Config.prio (other src) ≤ Config.prio src)
    (n : Nat) (hstk : (r n).dsp.stk = ⟨src, ph⟩ :: rest) :
    (r (n + 1)).dsp.stk = ⟨src, ph⟩ :: rest ∨ MovedOn src ph rest (r (n + 1)) := by
  have hc : Consistent (attempted (r n)) := consistent_of_units (consistent_along_run hrun h0 n) rfl rfl rfl rfl rfl
  have hstk' : (attempted (r n)).dsp.stk = ⟨src, ph⟩ :: rest := hstk
  rcases stk_of_runEvent hstk' (enterEnabled_of_urgent_top hc hprio hstk') (run_step hrun n) with h | ⟨-, h⟩ | h
  · exact .inl (by rw [h, hstk'])
  · exact .inr (.inl (by rw [h, stk_of_stepAfter hstk']))
  · exact .inr (.inr (by rw [h]; rfl))

/-- Outside the critical section the step that the sequence waits for is enabled by the phase alone, so it is taken. -/
theorem moves_on_of_unlocked (hrun : Run env r) (h0 : Consistent (r 0)) (hdsp : DispatcherFair env r)
    (hprio : Config.prio (other src) ≤ Config.prio src) (hph : ph ≠ .locked) {n : Nat}
    (hn : (r n).dsp.stk = ⟨src, ph⟩ :: rest) : ∃ m, n ≤ m ∧ MovedOn src ph rest (r m) := by
  refine FairFor.leads_to (hdsp (stepAfter ph) src) (P := fun s => s.dsp.stk = ⟨src, ph⟩ :: rest)
    (stays_or_movedOn hrun h0 hprio) (fun j h => ⟨_, rfl, ?_⟩) (fun j h ht => ?_) hn
  · cases ph with
    | locked => exact absurd rfl hph
    | entered => exact topIs_of_stk h
    | returned => exact topIs_of_stk h
    | acked => exact topIs_of_stk h
  · have h' : (attempted (r j)).dsp.stk = ⟨src, ph⟩ :: rest := h
    rw [next_of_takes_dsp hrun ht]
    exact .inl (stk_of_stepAfter h')

/-- The critical section ends with the release of its lock. -/
theorem moves_on_of_locked (hrun : Run env r) (h0 : Consistent (r 0)) (hn0 : Nested (r 0)) (henc : EncoderFair env r)
    (hdsp : DispatcherFair env r) (hprio : Config.prio (other src) ≤ Config.prio src) {n : Nat}
    (hn : (r n).dsp.stk = ⟨src, .locked⟩ :: rest) : ∃ m, n ≤ m ∧ MovedOn src .locked rest (r m) := by
  have hlock : ∀ {j}, (r j).dsp.stk = ⟨src, .locked⟩ :: rest → (r j).dsp.lock = true := fun {j} =>
    (nested_along_run hrun h0 hn0 j).top_locked src rest
  obtain ⟨m, hnm, hm⟩ := heldLockIsReleased env r hrun h0 henc hdsp n (hlock hn)
  refine (holds_or_reached (P := fun s => s.dsp.stk = ⟨src, .locked⟩ :: rest) (stays_or_movedOn hrun h0 hprio) hnm
    hn).resolve_left fun hstk => ?_
  rw [hlock hstk] at hm
  cases hm

theorem moves_on (hrun : Run env r) (h0 : Consistent (r 0)) (hn0 : Nested (r 0)) (henc : EncoderFair env r)
    (hdsp : DispatcherFair env r) (hprio : Config.prio (other src) ≤ Config.prio src) {n : Nat}
    (hn : (r n).dsp.stk = ⟨src, ph⟩ :: rest) : ∃ m, n ≤ m ∧ MovedOn src ph rest (r m) := by
  by_cases hph : ph = .locked
  · subst hph
    exact moves_on_of_locked hrun h0 hn0 henc hdsp hprio hn
  · exact moves_on_of_unlocked hrun h0 hdsp hprio hph hn

/-- No entry of the source is left. -/
def Left (src : Source) (s : State) : Prop := ∀ e ∈ s.dsp.stk, e.src ≠ src

theorem left_of_nil (h : s.dsp.stk = []) : Left src s := by
  simp [Left, h]

/-- Settles O60: the four phases follow each other, and after the last the source is not on the stack a second time. -/
theorem urgentSequenceIsLeft : Obligations.UrgentSequenceIsLeft := by
  intro env r hrun h0 hn0 henc hdsp n src ph rest hprio hn
  have next : ∀ {ph n}, (r n).dsp.stk = ⟨src, ph⟩ :: rest → ∃ m, n ≤ m ∧ MovedOn src ph rest (r m) :=
    moves_on hrun h0 hn0 henc hdsp hprio
  have acked : ∀ n, (r n).dsp.stk = ⟨src, .acked⟩ :: rest → ∃ m, n ≤ m ∧ Left src (r m) := fun n hn => by
    obtain ⟨m, hnm, hm | hm⟩ := next hn
    · have hnodup := (consistent_along_run hrun h0 n).stk_nodup
      rw [hn, List.map_cons, List.nodup_cons] at hnodup
      refine ⟨m, hnm, ?_⟩
      rw [Left, hm]
      exact (not_mem_sources_iff src rest).1 hnodup.1
    · exact ⟨m, hnm, left_of_nil hm⟩
  have before : ∀ ph ph', stkAfter src ph rest = ⟨src, ph'⟩ :: rest →
      (∀ n, (r n).dsp.stk = ⟨src, ph'⟩ :: rest → ∃ m, n ≤ m ∧ Left src (r m)) →
      ∀ n, (r n).dsp.stk = ⟨src, ph⟩ :: rest → ∃ m, n ≤ m ∧ Left src (r m) := fun ph ph' hafter hleft n hn => by
    obtain ⟨m, hnm, hm | hm⟩ := next hn
    · obtain ⟨m', hmm', hm'⟩ := hleft m (hm.trans hafter)
      exact ⟨m', hnm.trans hmm', hm'⟩
    · exact ⟨m, hnm, left_of_nil hm⟩
  have returned := before .returned .acked rfl acked
  have locked := before .locked .returned rfl returned
  have entered := before .entered .locked rfl locked
  cases ph with
  | entered => exact entered n hn
  | locked => exact locked n hn
  | returned => exact returned n hn
  | acked => exact acked n hn

end Sys2Proof.Machine

/-! PROOFS. The carrier waveform: the place of the carrier counter in its period, the level of `OUT` after each clock
edge, and how many edges of a period leave it high. -/

namespace Sys2Proof.Machine

open Sys2Proof.Safety

/-! ### The frame of a clock edge (R9, R51) -/

theorem ssClk_frame (u : SsUnit) :
    ssClk u = { u with sscnt := (ssClk u).sscnt, sspcnt := (ssClk u).sspcnt, sspend := (ssClk u).sspend } := by
  rcases u.ssen.eq_false_or_eq_true with hen | hen
  · by_cases hp : u.sspcnt = u.sspsc
    · by_cases hc : u.sscnt = u.ssarr
      · rw [ssClk_of_last hen hp hc]
      · rw [ssClk_of_counting hen hp hc]
    · rw [ssClk_of_prescaling hen hp]
  · rw [ssClk_of_stopped hen]

/-- Settles O28: each clocked unit has its frame, and the edge reaches no other. -/
theorem clockEdgeFrame : Obligations.ClockEdgeFrame := by
  intro s t b h hstep
  rw [step_of_clk h] at hstep
  cases hstep
  simp only [clkStep_div, clkStep_drv, clkStep_dsp, clkStep_enc, clkStep_rsp, clkStep_car, clkStep_ss, clkStep_ct,
    consume_div, consume_drv, consume_dsp, consume_enc, consume_rsp, consume_car, consume_ss, consume_ct, true_and]
  exact ⟨carClk_frame _ _, ssClk_frame _, ctClk_frame b _⟩

/-! ### Clock edges alone -/

/-- No clock edge reaches the construction state, so each finds the routing as the first did. -/
theorem clkSteps_drv (btn : Nat → Bool) (n : Nat) (s : State) : (clkSteps btn n s).drv = s.drv := by
  induction n with
  | zero => rfl
  | succ n ih => rw [clkSteps, clkStep_drv, ih]

theorem clkSteps_car_succ (btn : Nat → Bool) (n : Nat) (s : State) :
    (clkSteps btn (n + 1) s).car = carClk s.drv.pinrt (clkSteps btn n s).car := by
  rw [clkSteps, clkStep_car, clkSteps_drv]

/-! ### The place of the carrier counter in its period (R128) -/

/-- The counter of `d` runs within its limits, and `d` has the tuning, the threshold and the channel of `c`. -/
structure CarriesLike (c d : CarUnit) : Prop where
  clken : d.clken = true
  cen : d.cen = true
  cnt_le : d.cnt ≤ d.arr
  pcnt_le : d.pcnt ≤ d.psc
  psc : d.psc = c.psc
  arr : d.arr = c.arr
  duty : d.duty = c.duty
  ocen : d.ocen = c.ocen

theorem CarriesLike.carClk {c d : CarUnit} (h : CarriesLike c d) (pinrt : Bool) : CarriesLike c (carClk pinrt d) := by
  obtain ⟨hcnt, hpcnt⟩ := carClk_within h.cnt_le h.pcnt_le pinrt
  exact ⟨by simp [h.clken], by simp [h.cen], by simpa using hcnt, by simpa using hpcnt, by simp [h.psc],
    by simp [h.arr], by simp [h.duty], by simp [h.ocen]⟩

theorem carriesLike_clkSteps {s : State} (hc : Consistent s) (hready : s.drv.ready = true) (btn : Nat → Bool) (n : Nat) :
    CarriesLike s.car (clkSteps btn n s).car := by
  induction n with
  | zero =>
    obtain ⟨hclken, hcen, -⟩ := hc.ready_built hready
    exact ⟨hclken, hcen, hc.cnt_le, hc.pcnt_le, rfl, rfl, rfl, rfl⟩
  | succ n ih => rw [clkSteps_car_succ]; exact ih.carClk _

/-- How many clock edges of the present period have passed. -/
def carrierPhase (c : CarUnit) : Nat := c.cnt.toNat * (c.psc.toNat + 1) + c.pcnt.toNat

theorem CarriesLike.carrierPeriod_eq {c d : CarUnit} (h : CarriesLike c d) : carrierPeriod d = carrierPeriod c := by
  rw [carrierPeriod, h.psc, h.arr, carrierPeriod]

theorem carrierPhase_lt {c : CarUnit} (hcnt : c.cnt ≤ c.arr) (hpcnt : c.pcnt ≤ c.psc) :
    carrierPhase c < carrierPeriod c := by
  rw [BitVec.le_def] at hcnt hpcnt
  calc c.cnt.toNat * (c.psc.toNat + 1) + c.pcnt.toNat
      < c.cnt.toNat * (c.psc.toNat + 1) + (c.psc.toNat + 1) := by omega
    _ = (c.psc.toNat + 1) * (c.cnt.toNat + 1) := by ring
    _ ≤ carrierPeriod c := Nat.mul_le_mul_left _ (by omega)

/-- A clock edge ends the period at the last count of both counters and otherwise moves one place on. -/
theorem CarriesLike.carClk_cases {c d : CarUnit} (h : CarriesLike c d) (pinrt : Bool) :
    (carrierPhase d + 1 = carrierPeriod d ∧ carrierPhase (Machine.carClk pinrt d) = 0) ∨
    carrierPhase (Machine.carClk pinrt d) = carrierPhase d + 1 := by
  by_cases hp : d.pcnt = d.psc
  · rw [carClk_of_counting h.clken h.cen hp]
    by_cases hc : d.cnt = d.arr
    · refine .inl ⟨?_, by simp [carrierPhase, hc]⟩
      rw [carrierPhase, carrierPeriod, hp, hc]
      ring
    · refine .inr ?_
      have hzero : (0 : Half).toNat = 0 := rfl
      simp only [carrierPhase, hc, if_false, (toNat_succ_of_le_of_ne h.cnt_le hc).1, hp, hzero]
      ring
  · rw [carClk_of_prescaling h.clken h.cen hp]
    refine .inr ?_
    simp only [carrierPhase, (toNat_succ_of_le_of_ne h.pcnt_le hp).1]
    ring

theorem CarriesLike.carrierPhase_carClk {c d : CarUnit} (h : CarriesLike c d) (pinrt : Bool) :
    carrierPhase (Machine.carClk pinrt d) = (carrierPhase d + 1) % carrierPeriod c := by
  have hnext := h.carClk pinrt
  rcases h.carClk_cases pinrt with ⟨hlast, hzero⟩ | hsucc
  · rw [hzero, hlast, h.carrierPeriod_eq, Nat.mod_self]
  · rw [← hsucc, ← hnext.carrierPeriod_eq, Nat.mod_eq_of_lt (carrierPhase_lt hnext.cnt_le hnext.pcnt_le)]

/-- The place in the period counts the edges modulo the period. -/
theorem carrierPhase_clkSteps {s : State} (hc : Consistent s) (hready : s.drv.ready = true) (btn : Nat → Bool)
    (n : Nat) : carrierPhase (clkSteps btn n s).car = (carrierPhase s.car + n) % carrierPeriod s.car := by
  induction n with
  | zero => exact (Nat.mod_eq_of_lt (carrierPhase_lt hc.cnt_le hc.pcnt_le)).symm
  | succ n ih =>
    rw [clkSteps_car_succ, (carriesLike_clkSteps hc hready btn n).carrierPhase_carClk, ih, Nat.mod_add_mod,
      Nat.add_assoc]

/-! ### The level of `OUT` -/

/-- In how many places of the period the comparator is high, if the period is long enough. -/
def highEdges (c : CarUnit) : Nat := c.duty.toNat * (c.psc.toNat + 1)

/-- The counter lies below the threshold at the first places of the period. -/
theorem cnt_lt_duty_iff {c : CarUnit} (hpcnt : c.pcnt ≤ c.psc) : c.cnt < c.duty ↔ carrierPhase c < highEdges c := by
  rw [BitVec.le_def] at hpcnt
  rw [BitVec.lt_def, carrierPhase, highEdges]
  constructor <;> intro h
  · have := Nat.mul_le_mul_right (c.psc.toNat + 1) (Nat.succ_le_iff.2 h)
    rw [Nat.succ_mul] at this
    omega
  · by_contra hge
    have := Nat.mul_le_mul_right (c.psc.toNat + 1) (Nat.not_lt.1 hge)
    omega

/-- After an edge `OUT` shows the comparison of the values before it. -/
theorem out_clkSteps {s : State} (hc : Consistent s) (hready : s.drv.ready = true) (btn : Nat → Bool) (k : Nat) :
    (clkSteps btn (k + 1) s).car.out = (s.car.ocen && decide ((clkSteps btn k s).car.cnt < s.car.duty)) := by
  obtain ⟨-, -, hpinrt, -⟩ := hc.ready_built hready
  have h := carriesLike_clkSteps hc hready btn k
  rw [clkSteps_car_succ, carClk_out h.clken, carCompare, hpinrt, Bool.true_and, h.ocen, h.duty]

/-- The armed output is high after an edge that finds the counter at one of the first places of its period. -/
theorem out_clkSteps_iff {s : State} (hc : Consistent s) (hready : s.drv.ready = true) (hocen : s.car.ocen = true)
    (btn : Nat → Bool) (k : Nat) :
    (clkSteps btn (k + 1) s).car.out = true ↔
      (carrierPhase s.car + k) % carrierPeriod s.car < highEdges s.car := by
  have h := carriesLike_clkSteps hc hready btn k
  have hhigh : highEdges (clkSteps btn k s).car = highEdges s.car := by rw [highEdges, h.duty, h.psc, highEdges]
  rw [out_clkSteps hc hready, hocen, Bool.true_and, decide_eq_true_iff, ← h.duty, cnt_lt_duty_iff h.pcnt_le, hhigh,
    carrierPhase_clkSteps hc hready]

/-! ### Counting the high edges of a window (R128 items 1 and 2) -/

theorem count_lt (b n : Nat) : Nat.count (· < b) n = min n b := by
  induction n with
  | zero => simp
  | succ n ih =>
    rw [Nat.count_succ, ih]
    split <;> omega

theorem count_congr {p q : Nat → Prop} [DecidablePred p] [DecidablePred q] {n : Nat} (h : ∀ k < n, p k ↔ q k) :
    Nat.count p n = Nat.count q n :=
  Nat.le_antisymm (Nat.count_mono_left fun k hk => (h k hk).1) (Nat.count_mono_left fun k hk => (h k hk).2)

/-- Every window of one period counts a periodic predicate alike. -/
theorem count_window {p : Nat → Prop} [DecidablePred p] {P : Nat} (hp : ∀ n, p (P + n) ↔ p n) (a : Nat) :
    Nat.count (fun j => p (a + j)) P = Nat.count p P := by
  have hleft := Nat.count_add p a P
  have hright := Nat.count_add p P a
  have hshift : Nat.count (fun k => p (P + k)) a = Nat.count p a := count_congr fun k _ => hp k
  rw [Nat.add_comm a P] at hleft
  omega

theorem count_mod_lt (P b a : Nat) : Nat.count (fun j => (a + j) % P < b) P = min P b := by
  have hwindow : Nat.count (fun j => (a + j) % P < b) P = Nat.count (fun j => j % P < b) P :=
    count_window (p := fun j => j % P < b) (fun n => by rw [Nat.add_mod_left]) a
  rw [hwindow, ← count_lt b P]
  exact count_congr fun j hj => by rw [Nat.mod_eq_of_lt hj]

theorem min_carrierPeriod_highEdges (c : CarUnit) :
    min (carrierPeriod c) (highEdges c) = (c.psc.toNat + 1) * min c.duty.toNat (c.arr.toNat + 1) := by
  rw [carrierPeriod, highEdges, Nat.mul_comm c.duty.toNat, ← Nat.mul_min_mul_left, Nat.min_comm]

/-- Settles O29: the level is a function of the place in the period, high at its first `highEdges` places. -/
theorem carrierWaveform : Obligations.CarrierWaveform := by
  intro s btn hc hready hocen
  have hout := out_clkSteps_iff hc hready hocen btn
  refine ⟨fun k => ?_, fun k => ?_⟩
  · rw [Bool.eq_iff_iff, Nat.add_right_comm, hout, hout, ← Nat.add_assoc, Nat.add_mod_right]
  · rw [← min_carrierPeriod_highEdges, ← count_mod_lt _ _ (carrierPhase s.car + k)]
    refine List.countP_congr fun j _ => ?_
    rw [Nat.add_right_comm, hout, ← Nat.add_assoc, decide_eq_true_iff]

/-! ### The edges of the waveform (R128 item 3) and a duty above the reload count (R130) -/

/-- Settles O30: the comparison of the second edge is with the count that the first has set. -/
theorem carrierEdges : Obligations.CarrierEdges := by
  intro s btn hc hready
  obtain ⟨hclken, hcen, -⟩ := hc.ready_built hready
  have hout := out_clkSteps hc hready btn
  have hcount (hp : s.car.pcnt = s.car.psc) :
      (clkSteps btn 1 s).car.cnt = if s.car.cnt = s.car.arr then 0 else s.car.cnt + 1 := by
    rw [clkSteps_car_succ, clkSteps, carClk_of_counting hclken hcen hp]
  refine ⟨fun hocen hp hlast hduty => ?_, fun hocen hp hnext hle => ?_, fun hocen k => ?_⟩
  · have hzero : (clkSteps btn 1 s).car.cnt = 0 := by rw [hcount hp, if_pos hlast]
    refine ⟨hzero, ?_, fun hle => ?_⟩
    · rw [hout 1, hocen, hzero, Bool.true_and, decide_eq_true_iff]
      exact BitVec.lt_def.2 hduty
    · rw [hout 0, hocen, clkSteps, hlast, Bool.true_and, decide_eq_false_iff_not, BitVec.lt_def]
      omega
  · have hne : s.car.cnt ≠ s.car.arr := fun h => by rw [h] at hnext; omega
    have hsucc : s.car.cnt + 1 = s.car.duty := by
      rw [← BitVec.toNat_inj, (toNat_succ_of_le_of_ne hc.cnt_le hne).1, hnext]
    have hcnt : (clkSteps btn 1 s).car.cnt = s.car.duty := by rw [hcount hp, if_neg hne, hsucc]
    refine ⟨hcnt, ?_, ?_⟩
    · rw [hout 0, hocen, clkSteps, Bool.true_and, decide_eq_true_iff, BitVec.lt_def]
      omega
    · rw [hout 1, hocen, hcnt, Bool.true_and, decide_eq_false_iff_not, BitVec.lt_def]
      omega
  · rw [hout k, hocen, Bool.false_and]

/-- The counter never exceeds the reload count, so a higher threshold is never reached. -/
theorem highEdges_ge_of_duty_gt {c : CarUnit} (h : c.arr < c.duty) : carrierPeriod c ≤ highEdges c := by
  rw [BitVec.lt_def] at h
  rw [carrierPeriod, highEdges, Nat.mul_comm]
  exact Nat.mul_le_mul_right _ h

theorem highEdges_lt_of_duty_le {c : CarUnit} (h : c.duty ≤ c.arr) : highEdges c < carrierPeriod c := by
  rw [BitVec.le_def] at h
  rw [carrierPeriod, highEdges, Nat.mul_comm]
  exact Nat.mul_lt_mul_of_pos_left (by omega) (by omega)

theorem carrierPeriod_pos (c : CarUnit) : 0 < carrierPeriod c := by
  simp [carrierPeriod]

/-- From every place `a` some edge within one period finds the counter at the last place. -/
theorem exists_last_place {P : Nat} (hP : 0 < P) (a : Nat) : ∃ j < P, (a + j) % P = P - 1 := by
  have hlt := Nat.mod_lt a hP
  refine ⟨P - 1 - a % P, by omega, ?_⟩
  rw [← Nat.mod_add_mod, Nat.add_sub_cancel' (by omega), Nat.mod_eq_of_lt (by omega)]

/-- Settles O31: the high places are all of the period, or leave out its last. -/
theorem dutyAboveReload : Obligations.DutyAboveReload := by
  intro s btn hc hready hocen
  have hout := out_clkSteps_iff hc hready hocen btn
  have hpos := carrierPeriod_pos s.car
  refine ⟨fun h k => (hout k).2 ?_, fun h k => ?_⟩
  · exact Nat.lt_of_lt_of_le (Nat.mod_lt _ hpos) (highEdges_ge_of_duty_gt h)
  · obtain ⟨j, hj, hlast⟩ := exists_last_place hpos (carrierPhase s.car + k)
    refine ⟨j, hj, Bool.eq_false_iff.2 fun hhigh => ?_⟩
    have hlt := highEdges_lt_of_duty_le h
    rw [Nat.add_right_comm, hout, ← Nat.add_assoc, hlast] at hhigh
    omega

end Sys2Proof.Machine

/-! PROOFS. Changes of the registers: what each step can do to each unit, which steps switch each status flag, which
change the duty, and the timer before the first `INIT`. -/

namespace Sys2Proof.Machine

open Sys2Proof.Safety

variable {s t : State}

/-! ### What a step can do to the construction state and the carrier timer -/

theorem issues_of_decode {e : Event} {w : TxnWord} {i : Instr} (he : e = .txn w) (hi : decode w = .ok i) :
    Issues (mnemonicOf i) e := ⟨w, i, he, hi, rfl⟩

/-- The one write of the timer that a transaction makes on the surface, and the row that makes it. -/
def SurfaceWriteBy (e : Event) (c d : CarUnit) : Prop :=
  (Issues .ENABLE e ∧ d = { c with ocen := true }) ∨ (Issues .DISABLE e ∧ d = { c with ocen := false }) ∨
    (Issues .SETDUTY e ∧ ∃ v, d = { c with duty := v })

/-- A word keeps both units, makes one write of a surface that is ready, or performs the one construction. -/
theorem runWord_drv_car {w : TxnWord} (h : runWord w s = .next t) :
    (t.drv = s.drv ∧ t.car = s.car) ∨
    (t.drv = s.drv ∧ s.drv.ready = true ∧ SurfaceWriteBy (.txn w) s.car t.car) ∨
    (Issues .INIT (.txn w) ∧ s.drv.ready = false ∧ s.drv.cfgerr = false ∧ t = construct Config.pinSetupSupported s) := by
  rcases runWord_cases h with ⟨i, hi, hexec⟩ | ⟨e, -, rfl⟩
  · have hissues := issues_of_decode rfl hi
    rcases exec_cases hexec with ⟨c, d, rfl⟩ | ⟨v, -, rfl⟩ | ⟨v, -, rfl⟩ | ⟨v, -, rfl⟩ | ⟨v, -, -, rfl⟩ |
      ⟨rq, rfl, hready, rfl⟩ | ⟨rq, rfl, hready, rfl⟩ | ⟨rq, v, rfl, hready, rfl⟩ | ⟨rfl, hready, herr, rfl⟩ |
      ⟨-, -, -, rfl⟩ | ⟨-, -, -, rfl⟩
    case inr.inr.inr.inr.inr.inl => exact .inr (.inl ⟨rfl, hready, .inl ⟨hissues, rfl⟩⟩)
    case inr.inr.inr.inr.inr.inr.inl => exact .inr (.inl ⟨rfl, hready, .inr (.inl ⟨hissues, rfl⟩)⟩)
    case inr.inr.inr.inr.inr.inr.inr.inl => exact .inr (.inl ⟨rfl, hready, .inr (.inr ⟨hissues, _, rfl⟩)⟩)
    case inr.inr.inr.inr.inr.inr.inr.inr.inl => exact .inr (.inr ⟨hissues, hready, herr, rfl⟩)
    case inr.inr.inr.inr.inr.inr.inr.inr.inr.inl =>
      rcases startSampling_cases s with ⟨c, -, e⟩ | ⟨d, -, e⟩ <;> rw [e] <;> exact .inl ⟨rfl, rfl⟩
    all_goals exact .inl ⟨rfl, rfl⟩
  · exact .inl ⟨rfl, rfl⟩

/-- Everything a step can do to the two units. -/
theorem step_drv_car (hstep : step s = .next t) :
    (t.drv = s.drv ∧ t.car = s.car) ∨
    (∃ b, nextEvent s = .clk b ∧ t.drv = s.drv ∧ t.car = carClk s.drv.pinrt s.car) ∨
    (t.drv = s.drv ∧ s.drv.ready = true ∧ SurfaceWriteBy (nextEvent s) s.car t.car) ∨
    (Issues .INIT (nextEvent s) ∧ s.drv.ready = false ∧ s.drv.cfgerr = false ∧
      t = construct Config.pinSetupSupported (consume s)) ∨
    (nextEvent s = .reset ∧ t.drv = State.reset.drv ∧ t.car = State.reset.car) := by
  rw [step_eq] at hstep
  rw [← consume_drv s, ← consume_car s]
  rcases runEvent_cases hstep with
    ⟨-, rfl⟩ | ⟨b, he, rfl⟩ | ⟨w, he, -, hw⟩ | ⟨k, src, -, -, rfl⟩ | ⟨-, -, rfl⟩ | ⟨he, rfl⟩
  · exact .inl ⟨rfl, rfl⟩
  · exact .inr (.inl ⟨b, he, rfl, rfl⟩)
  · rw [he]
    rcases runWord_drv_car hw with hkept | hwritten | hbuilt
    · exact .inl hkept
    · exact .inr (.inr (.inl hwritten))
    · exact .inr (.inr (.inr (.inl hbuilt)))
  · exact .inl (dspEffect_drv_car k src _)
  · exact .inl (encReturn_drv_car _)
  · exact .inr (.inr (.inr (.inr ⟨he, rfl, rfl⟩)))

/-! ### The duty (R34) -/

/-- An `INIT` answered `OK` has built the timer with half the reload count as the duty. -/
theorem duty_of_init_ok {u : State} (h : exec (.init .host) s = .next u) (hok : u.rsp = some ⟨.ok, 0⟩) :
    u.car.duty = u.car.arr >>> 1 := by
  by_cases hfinal : s.drv.ready = true ∨ s.drv.cfgerr = true
  · rw [exec_init_of_final hfinal] at h
    cases h; cases hok
  · simp only [not_or, Bool.not_eq_true] at hfinal
    rw [exec_init_of_unbuilt hfinal.1 hfinal.2] at h
    cases h
    cases hdiv : clockDivider s.div.fin s.div.ftgt with
    | error c =>
      rw [construct_of_error hdiv] at hok
      exact absurd (congrArg Response.code (Option.some.inj hok)) (causeCode_ne_ok c)
    | ok d => rw [construct_of_ok hdiv]

/-- Settles O52: construction loads the duty, and the only other writes of it are those of `SETDUTY` and reset. -/
theorem dutyChangesBySetdutyOnly : Obligations.DutyChangesBySetdutyOnly := by
  refine ⟨fun s u => duty_of_init_ok, fun s t hstep hne => ?_⟩
  rcases step_drv_car hstep with ⟨-, hcar⟩ | ⟨b, -, -, hcar⟩ | ⟨-, -, ⟨-, hcar⟩ | ⟨-, hcar⟩ | ⟨hissues, -⟩⟩ |
    ⟨hissues, -⟩ | ⟨he, -⟩
  · exact absurd (by rw [hcar]) hne
  · exact absurd (by rw [hcar, carClk_duty]) hne
  · exact absurd (by rw [hcar]) hne
  · exact absurd (by rw [hcar]) hne
  · exact .inl hissues
  · exact .inr (.inl hissues)
  · exact .inr (.inr he)

/-! ### Before the first `INIT` (R141, R222) -/

/-- Construction leaves one of the two flags of R145 set. -/
theorem construct_final (b : Bool) (s : State) :
    (construct b s).drv.ready = true ∨ (construct b s).drv.cfgerr = true := by
  cases hdiv : clockDivider s.div.fin s.div.ftgt with
  | error c => rw [construct_of_error hdiv]; exact .inr rfl
  | ok d =>
    rw [construct_of_ok hdiv]
    cases b
    · exact .inr rfl
    · exact .inl rfl

/-- Settles O35: without `READY` the surface is closed and without `CLKEN` the edges do nothing, so only construction and
reset reach the units. -/
theorem peripheralResetIsInvisible : Obligations.PeripheralResetIsInvisible := by
  refine ⟨fun s hpristine hready herr => ?_, fun s t hpristine hstep hready herr => ?_⟩
  · obtain ⟨hcar, -⟩ := hpristine hready herr
    rw [initStep1, hcar]
    rfl
  · rcases step_drv_car hstep with ⟨hdrv, hcar⟩ | ⟨b, -, hdrv, hcar⟩ | ⟨hdrv, hready', -⟩ | ⟨-, -, -, rfl⟩ |
      ⟨-, hdrv, hcar⟩
    · rw [hdrv] at hready herr ⊢
      rw [hcar]
      exact hpristine hready herr
    · rw [hdrv] at hready herr ⊢
      obtain ⟨hcar', hdrv'⟩ := hpristine hready herr
      rw [hcar, hcar', carClk_of_gated rfl]
      exact ⟨rfl, hdrv'⟩
    · rw [hdrv, hready'] at hready
      cases hready
    · rcases construct_final Config.pinSetupSupported (consume s) with h | h
      · rw [h] at hready; cases hready
      · rw [h] at herr; cases herr
    · exact ⟨hcar, hdrv⟩

/-! ### What a step can do to the sample timer, the trigger and the lock -/

/-- A word keeps the enable and the flag of the sample timer, or is the `SSSTART` that enables it. -/
theorem runWord_ss {w : TxnWord} (h : runWord w s = .next t) :
    t.ss.sspend = s.ss.sspend ∧ (t.ss.ssen = s.ss.ssen ∨ (Issues .SSSTART (.txn w) ∧ t.ss.ssen = true)) := by
  rcases runWord_cases h with ⟨i, hi, hexec⟩ | ⟨e, -, rfl⟩
  · have hissues := issues_of_decode rfl hi
    rcases exec_cases hexec with ⟨c, d, rfl⟩ | ⟨v, -, rfl⟩ | ⟨v, -, rfl⟩ | ⟨v, -, rfl⟩ | ⟨v, -, -, rfl⟩ |
      ⟨rq, -, -, rfl⟩ | ⟨rq, -, -, rfl⟩ | ⟨rq, v, -, -, rfl⟩ | ⟨-, -, -, rfl⟩ | ⟨rfl, -, -, rfl⟩ | ⟨-, -, -, rfl⟩
    case inr.inr.inr.inr.inr.inr.inr.inr.inl => rw [construct_ss]; exact ⟨rfl, .inl rfl⟩
    case inr.inr.inr.inr.inr.inr.inr.inr.inr.inl =>
      rcases startSampling_cases s with ⟨c, -, e⟩ | ⟨d, -, e⟩ <;> rw [e]
      · exact ⟨rfl, .inl rfl⟩
      · exact ⟨rfl, .inr ⟨hissues, rfl⟩⟩
    all_goals exact ⟨rfl, .inl rfl⟩
  · exact ⟨rfl, .inl rfl⟩

theorem construct_ct (b : Bool) (s : State) : (construct b s).ct = s.ct := by
  rcases construct_cases b s with ⟨c, -, h⟩ | ⟨d, -, -, h⟩ | ⟨d, -, -, h⟩ <;> rw [h] <;> rfl

/-- A word keeps the flags of the trigger, or is the `CTARM` that arms it. -/
theorem runWord_ct {w : TxnWord} (h : runWord w s = .next t) :
    t.ct.ctpend = s.ct.ctpend ∧ t.ct.busyerr = s.ct.busyerr ∧
      (t.ct.cten = s.ct.cten ∨ (Issues .CTARM (.txn w) ∧ t.ct.cten = true)) := by
  rcases runWord_cases h with ⟨i, hi, hexec⟩ | ⟨e, -, rfl⟩
  · have hissues := issues_of_decode rfl hi
    rcases exec_cases hexec with ⟨c, d, rfl⟩ | ⟨v, -, rfl⟩ | ⟨v, -, rfl⟩ | ⟨v, -, rfl⟩ | ⟨v, -, -, rfl⟩ |
      ⟨rq, -, -, rfl⟩ | ⟨rq, -, -, rfl⟩ | ⟨rq, v, -, -, rfl⟩ | ⟨-, -, -, rfl⟩ | ⟨-, -, -, rfl⟩ | ⟨rfl, -, -, rfl⟩
    case inr.inr.inr.inr.inr.inr.inr.inr.inl => rw [construct_ct]; exact ⟨rfl, rfl, .inl rfl⟩
    case inr.inr.inr.inr.inr.inr.inr.inr.inr.inl =>
      rcases startSampling_cases s with ⟨c, -, e⟩ | ⟨d, -, e⟩ <;> rw [e] <;> exact ⟨rfl, rfl, .inl rfl⟩
    case inr.inr.inr.inr.inr.inr.inr.inr.inr.inr => exact ⟨rfl, rfl, .inr ⟨hissues, rfl⟩⟩
    all_goals exact ⟨rfl, rfl, .inl rfl⟩
  · exact ⟨rfl, rfl, .inl rfl⟩

/-- A step of a handler sequence keeps the enables of both sources. -/
theorem dspEffect_enables (k : DspStep) (src : Source) (s : State) :
    (dspEffect k src s).ss.ssen = s.ss.ssen ∧ (dspEffect k src s).ct.cten = s.ct.cten := by
  cases k with
  | enter => exact ⟨rfl, rfl⟩
  | lock => exact ⟨rfl, rfl⟩
  | ret => rcases returnStep_cases src s with ⟨-, -, h⟩ | ⟨-, h⟩ <;> simp [dspEffect, h]
  | ack => cases src <;> exact ⟨rfl, rfl⟩
  | exit => exact ⟨rfl, rfl⟩

/-- Only `ACK` reaches a pending flag, that of its own source (R201). -/
theorem dspEffect_pending (k : DspStep) (src src' : Source) (s : State) :
    pending src' (dspEffect k src s) = pending src' s ∨
      (k = .ack ∧ src = src' ∧ pending src' (dspEffect k src s) = false) := by
  cases k with
  | enter => exact .inl (by cases src' <;> rfl)
  | lock => exact .inl (by cases src' <;> rfl)
  | ret =>
    rcases returnStep_cases src s with ⟨-, -, h⟩ | ⟨-, h⟩ <;>
      exact .inl (by cases src' <;> simp [dspEffect, h, pending])
  | ack =>
    by_cases h : src = src'
    · subst h
      exact .inr ⟨rfl, rfl, by cases src <;> rfl⟩
    · obtain rfl := eq_other_of_ne h
      exact .inl (by cases src' <;> rfl)
  | exit => exact .inl (by cases src' <;> rfl)

/-- Only `RETURN` of `CT` reaches `BUSYERR`, and sets it (R183). -/
theorem dspEffect_busyerr (k : DspStep) (src : Source) (s : State) :
    (dspEffect k src s).ct.busyerr = s.ct.busyerr ∨
      (k = .ret ∧ src = .ct ∧ (dspEffect k src s).ct.busyerr = true) := by
  cases k with
  | enter => exact .inl rfl
  | lock => exact .inl rfl
  | ret =>
    rcases returnStep_cases src s with ⟨hsrc, -, h⟩ | ⟨-, h⟩
    · exact .inr ⟨rfl, hsrc, by simp [dspEffect, h]⟩
    · exact .inl (by simp [dspEffect, h])
  | ack => cases src <;> exact .inl rfl
  | exit => exact .inl rfl

/-- `LOCK` takes the lock and `RETURN` releases it (R199, R200). -/
theorem dspEffect_lock (k : DspStep) (src : Source) (s : State) :
    (dspEffect k src s).dsp.lock = s.dsp.lock ∨ (k = .lock ∧ (dspEffect k src s).dsp.lock = true) ∨
      (k = .ret ∧ (dspEffect k src s).dsp.lock = false) := by
  cases k with
  | enter => exact .inl rfl
  | lock => exact .inr (.inl ⟨rfl, rfl⟩)
  | ret => exact .inr (.inr ⟨rfl, by rw [dspEffect, returnStep_dsp]⟩)
  | ack => exact .inl rfl
  | exit => exact .inl rfl

theorem encReturn_ct (s : State) : (encReturn s).ct = s.ct := by
  rcases encReturn_cases s with ⟨-, h⟩ | ⟨-, h⟩ | ⟨-, h⟩ <;> rw [h] <;> rfl

/-- A clock edge clears no pending flag. -/
theorem pending_clkStep {src : Source} (h : pending src s = true) (b : Bool) : pending src (clkStep b s) = true := by
  cases src with
  | ss =>
    have hpend : s.ss.sspend = true := h
    simp only [pending, clkStep_ss, ssClk]
    split
    · split
      · split
        · rfl
        · exact hpend
      · exact hpend
    · exact hpend
  | ct =>
    have hpend : s.ct.ctpend = true := h
    simp [pending, ctClk, hpend]

/-! ### Which step switches which flag (R27) -/

/-- A flag that goes from `a` to `b` is set for the reason `up` and cleared for the reason `down`. -/
def Switches (up down : Prop) (a b : Bool) : Prop := (a = false → b = true → up) ∧ (a = true → b = false → down)

section
variable {up down : Prop} {a b : Bool}

theorem Switches.kept (h : b = a) : Switches up down a b := by
  subst h
  cases b <;> exact ⟨nofun, nofun⟩

theorem Switches.set (hb : b = true) (hup : a = false → up) : Switches up down a b :=
  ⟨fun ha _ => hup ha, fun _ hb' => absurd (hb.symm.trans hb') nofun⟩

theorem Switches.cleared (hb : b = false) (hdown : a = true → down) : Switches up down a b :=
  ⟨fun _ hb' => absurd (hb.symm.trans hb') nofun, fun ha _ => hdown ha⟩

theorem Switches.monotone (hmono : a = true → b = true) (hup : up) : Switches up down a b :=
  ⟨fun _ _ => hup, fun ha hb => absurd ((hmono ha).symm.trans hb) nofun⟩

end

/-- Construction sets the gate, disarms the channel and lowers the output; of the routing bits it clears none. -/
theorem construct_flags (b : Bool) (s : State) :
    (construct b s).car.clken = true ∧ (construct b s).car.ocen = false ∧ (construct b s).car.out = false ∧
      (s.drv.pinrt = true → (construct b s).drv.pinrt = true) ∧
      (s.drv.moden = true → (construct b s).drv.moden = true) := by
  cases hdiv : clockDivider s.div.fin s.div.ftgt with
  | error c => rw [construct_of_error hdiv]; exact ⟨rfl, rfl, rfl, id, id⟩
  | ok d =>
    rw [construct_of_ok hdiv]
    cases b
    · exact ⟨rfl, rfl, rfl, id, id⟩
    · exact ⟨rfl, rfl, rfl, fun _ => rfl, fun _ => rfl⟩

theorem step_switches_drv (hstep : step s = .next t) :
    Switches (Issues .INIT (nextEvent s)) (nextEvent s = .reset) s.drv.ready t.drv.ready ∧
    Switches (Issues .INIT (nextEvent s)) (nextEvent s = .reset) s.drv.cfgerr t.drv.cfgerr ∧
    Switches (Issues .INIT (nextEvent s)) (nextEvent s = .reset) s.drv.pinrt t.drv.pinrt ∧
    Switches (Issues .INIT (nextEvent s)) (nextEvent s = .reset) s.drv.moden t.drv.moden := by
  rcases step_drv_car hstep with ⟨hdrv, -⟩ | ⟨b, -, hdrv, -⟩ | ⟨hdrv, -⟩ | ⟨hissues, hready, herr, rfl⟩ | ⟨he, hdrv, -⟩
  case inr.inr.inr.inl =>
    obtain ⟨-, -, -, hpinrt, hmoden⟩ := construct_flags Config.pinSetupSupported (consume s)
    rw [consume_drv] at hpinrt hmoden
    exact ⟨.monotone (by simp [hready]) hissues, .monotone (by simp [herr]) hissues, .monotone hpinrt hissues,
      .monotone hmoden hissues⟩
  case inr.inr.inr.inr =>
    rw [hdrv]
    exact ⟨.cleared rfl fun _ => he, .cleared rfl fun _ => he, .cleared rfl fun _ => he, .cleared rfl fun _ => he⟩
  all_goals
    rw [hdrv]
    exact ⟨.kept rfl, .kept rfl, .kept rfl, .kept rfl⟩

theorem step_switches_timer (hstep : step s = .next t) :
    Switches (Issues .INIT (nextEvent s)) (nextEvent s = .reset) s.car.clken t.car.clken ∧
    Switches (Issues .INIT (nextEvent s)) (Issues .INIT (nextEvent s) ∨ nextEvent s = .reset) s.car.cen t.car.cen := by
  rcases step_drv_car hstep with ⟨-, hcar⟩ | ⟨b, -, -, hcar⟩ | ⟨-, -, ⟨-, hcar⟩ | ⟨-, hcar⟩ | ⟨-, v, hcar⟩⟩ |
    ⟨hissues, -, -, rfl⟩ | ⟨he, -, hcar⟩
  case inr.inr.inr.inl =>
    obtain ⟨hclken, -⟩ := construct_flags Config.pinSetupSupported (consume s)
    exact ⟨.set hclken fun _ => hissues, fun _ _ => hissues, fun _ _ => .inl hissues⟩
  case inr.inr.inr.inr =>
    rw [hcar]
    exact ⟨.cleared rfl fun _ => he, .cleared rfl fun _ => .inr he⟩
  all_goals
    rw [hcar]
    exact ⟨.kept (by simp), .kept (by simp)⟩

theorem step_switches_ocen (hstep : step s = .next t) :
    Switches (Issues .ENABLE (nextEvent s))
      (Issues .DISABLE (nextEvent s) ∨ Issues .INIT (nextEvent s) ∨ nextEvent s = .reset) s.car.ocen t.car.ocen := by
  rcases step_drv_car hstep with ⟨-, hcar⟩ | ⟨b, -, -, hcar⟩ | ⟨-, -, ⟨hissues, hcar⟩ | ⟨hissues, hcar⟩ | ⟨-, v, hcar⟩⟩ |
    ⟨hissues, -, -, rfl⟩ | ⟨he, -, hcar⟩
  · exact .kept (by rw [hcar])
  · exact .kept (by rw [hcar, carClk_ocen])
  · exact .set (by rw [hcar]) fun _ => hissues
  · exact .cleared (by rw [hcar]) fun _ => .inl hissues
  · exact .kept (by rw [hcar])
  · exact .cleared (construct_flags _ _).2.1 fun _ => .inr (.inl hissues)
  · exact .cleared (by rw [hcar]; rfl) fun _ => .inr (.inr he)

theorem step_switches_out (hstep : step s = .next t) :
    Switches (∃ b, nextEvent s = .clk b)
      ((∃ b, nextEvent s = .clk b) ∨ Issues .INIT (nextEvent s) ∨ nextEvent s = .reset) s.car.out t.car.out := by
  rcases step_drv_car hstep with ⟨-, hcar⟩ | ⟨b, he, -⟩ | ⟨-, -, ⟨-, hcar⟩ | ⟨-, hcar⟩ | ⟨-, v, hcar⟩⟩ |
    ⟨hissues, -, -, rfl⟩ | ⟨he, -, hcar⟩
  case inr.inl => exact ⟨fun _ _ => ⟨b, he⟩, fun _ _ => .inl ⟨b, he⟩⟩
  case inr.inr.inr.inl => exact .cleared (construct_flags _ _).2.2.1 fun _ => .inr (.inl hissues)
  case inr.inr.inr.inr => exact .cleared (by rw [hcar]; rfl) fun _ => .inr (.inr he)
  all_goals exact .kept (by rw [hcar])

theorem step_switches_enables (hstep : step s = .next t) :
    Switches (Issues .SSSTART (nextEvent s)) (nextEvent s = .reset) s.ss.ssen t.ss.ssen ∧
    Switches (Issues .CTARM (nextEvent s)) (nextEvent s = .reset) s.ct.cten t.ct.cten := by
  rw [step_eq] at hstep
  rw [← consume_ss s, ← consume_ct s]
  rcases runEvent_cases hstep with
    ⟨-, rfl⟩ | ⟨b, he, rfl⟩ | ⟨w, he, -, hw⟩ | ⟨k, src, -, -, rfl⟩ | ⟨-, -, rfl⟩ | ⟨he, rfl⟩
  · exact ⟨.kept rfl, .kept rfl⟩
  · exact ⟨.kept (by rw [clkStep_ss, ssClk_frame]), .kept rfl⟩
  · rw [he]
    obtain ⟨-, hss⟩ := runWord_ss hw
    obtain ⟨-, -, hct⟩ := runWord_ct hw
    exact ⟨hss.elim .kept fun h => .set h.2 fun _ => h.1, hct.elim .kept fun h => .set h.2 fun _ => h.1⟩
  · obtain ⟨hss, hct⟩ := dspEffect_enables k src (consume s)
    exact ⟨.kept hss, .kept hct⟩
  · exact ⟨.kept (by rw [encReturn_ss]), .kept (by rw [encReturn_ct])⟩
  · exact ⟨.cleared rfl fun _ => he, .cleared rfl fun _ => he⟩

theorem step_switches_pending (hstep : step s = .next t) (src : Source) :
    Switches (∃ b, nextEvent s = .clk b) (nextEvent s = .dsp .ack src ∨ nextEvent s = .reset) (pending src s)
      (pending src t) := by
  rw [step_eq] at hstep
  rw [← pending_congr (consume_ss s) (consume_ct s) src]
  rcases runEvent_cases hstep with
    ⟨-, rfl⟩ | ⟨b, he, rfl⟩ | ⟨w, -, -, hw⟩ | ⟨k, src', he, -, rfl⟩ | ⟨-, -, rfl⟩ | ⟨he, rfl⟩
  · exact .kept rfl
  · exact .monotone (fun h => pending_clkStep h b) ⟨b, he⟩
  · obtain ⟨hss, -⟩ := runWord_ss hw
    obtain ⟨hct, -⟩ := runWord_ct hw
    exact .kept (by cases src; exacts [hss, hct])
  · rcases dspEffect_pending k src' src (consume s) with h | ⟨rfl, rfl, h⟩
    · exact .kept h
    · exact .cleared h fun _ => .inl he
  · exact .kept (pending_congr (encReturn_ss _) (encReturn_ct _) src)
  · exact .cleared (by cases src <;> rfl) fun _ => .inr he

theorem step_switches_busyerr (hstep : step s = .next t) :
    Switches (nextEvent s = .dsp .ret .ct) (nextEvent s = .reset) s.ct.busyerr t.ct.busyerr := by
  rw [step_eq] at hstep
  rw [← consume_ct s]
  rcases runEvent_cases hstep with
    ⟨-, rfl⟩ | ⟨b, -, rfl⟩ | ⟨w, -, -, hw⟩ | ⟨k, src, he, -, rfl⟩ | ⟨-, -, rfl⟩ | ⟨he, rfl⟩
  · exact .kept rfl
  · exact .kept rfl
  · obtain ⟨-, hbusy, -⟩ := runWord_ct hw
    exact .kept hbusy
  · rcases dspEffect_busyerr k src (consume s) with h | ⟨rfl, rfl, h⟩
    · exact .kept h
    · exact .set h fun _ => he
  · exact .kept (by rw [encReturn_ct])
  · exact .cleared rfl fun _ => he

theorem step_switches_lock (hstep : step s = .next t) :
    Switches (∃ src, nextEvent s = .dsp .lock src) ((∃ src, nextEvent s = .dsp .ret src) ∨ nextEvent s = .reset)
      s.dsp.lock t.dsp.lock := by
  rw [step_eq] at hstep
  rw [← consume_dsp s]
  rcases runEvent_cases hstep with
    ⟨-, rfl⟩ | ⟨b, -, rfl⟩ | ⟨w, -, -, hw⟩ | ⟨k, src, he, -, rfl⟩ | ⟨-, -, rfl⟩ | ⟨he, rfl⟩
  · exact .kept rfl
  · exact .kept rfl
  · exact .kept (by rw [(runWord_dsp_enc hw).1])
  · rcases dspEffect_lock k src (consume s) with h | ⟨rfl, h⟩ | ⟨rfl, h⟩
    · exact .kept h
    · exact .set h fun _ => ⟨src, he⟩
    · exact .cleared h fun _ => .inl ⟨src, he⟩
  · exact .kept (by rw [encReturn_dsp])
  · exact .cleared rfl fun _ => .inr he

/-- Settles O51: flag by flag, the unit's step lemma says which step sets it and which clears it. -/
theorem flagsChangeByTheNamedStepsOnly : Obligations.FlagsChangeByTheNamedStepsOnly := by
  intro s t hstep
  obtain ⟨⟨ready_set, ready_clr⟩, ⟨cfgerr_set, cfgerr_clr⟩, ⟨pinrt_set, pinrt_clr⟩, ⟨moden_set, moden_clr⟩⟩ :=
    step_switches_drv hstep
  obtain ⟨⟨clken_set, clken_clr⟩, ⟨cen_set, cen_clr⟩⟩ := step_switches_timer hstep
  obtain ⟨ocen_set, ocen_clr⟩ := step_switches_ocen hstep
  obtain ⟨out_set, out_clr⟩ := step_switches_out hstep
  obtain ⟨⟨ssen_set, ssen_clr⟩, ⟨cten_set, cten_clr⟩⟩ := step_switches_enables hstep
  obtain ⟨busyerr_set, busyerr_clr⟩ := step_switches_busyerr hstep
  obtain ⟨lock_set, lock_clr⟩ := step_switches_lock hstep
  exact ⟨ready_set, ready_clr, cfgerr_set, cfgerr_clr, clken_set, clken_clr, cen_set, cen_clr, ocen_set, ocen_clr,
    pinrt_set, pinrt_clr, moden_set, moden_clr, out_set, out_clr, ssen_set, ssen_clr, cten_set, cten_clr,
    fun src => (step_switches_pending hstep src).1, fun src => (step_switches_pending hstep src).2,
    busyerr_set, busyerr_clr, lock_set, lock_clr⟩

end Sys2Proof.Machine

/-! PROOFS. Answers of the port: why each code is given and what an error changes, what a repeated or a following
transaction answers, and the transactions of the encoder. -/

namespace Sys2Proof.Machine

open Sys2Proof.Safety

variable {s u : State} {t : TxnWord}

/-! ### The row that a word issues, by its fields (R85) -/

theorem issues_of_write {r : Reg} {i : Instr} (hw : weOf t = true) (ha : addrOf t = regAddr r)
    (hi : writeInstr r (rqOf t) (wdataOf t) = .ok i) : Issues (mnemonicOf i) (.txn t) :=
  issues_of_decode rfl (decode_of_write_ok (by rw [ha, regAt_regAddr]) hw hi)

theorem issues_of_read {r : Reg} (hw : weOf t = false) (ha : addrOf t = regAddr r) :
    Issues (mnemonicOf (readInstr r (rqOf t))) (.txn t) :=
  issues_of_decode rfl (decode_of_read (by rw [ha, regAt_regAddr]) hw)

theorem issues_init (hw : weOf t = true) (ha : addrOf t = 0x1C) (hd : wdataOf t = 1) : Issues .INIT (.txn t) :=
  issues_of_write (r := .ctrl) hw ha (i := .init (rqOf t)) (by rw [hd]; rfl)

theorem issues_ssstart (hw : weOf t = true) (ha : addrOf t = 0x1C) (hd : wdataOf t = 2) : Issues .SSSTART (.txn t) :=
  issues_of_write (r := .ctrl) hw ha (i := .ssstart (rqOf t)) (by rw [hd]; rfl)

theorem issues_ctarm (hw : weOf t = true) (ha : addrOf t = 0x1C) (hd : wdataOf t = 3) : Issues .CTARM (.txn t) :=
  issues_of_write (r := .ctrl) hw ha (i := .ctarm (rqOf t)) (by rw [hd]; rfl)

theorem issues_setcmd (hw : weOf t = true) (ha : addrOf t = 0x0C) : Issues .SETCMD (.txn t) :=
  issues_of_write (r := .cmdval) hw ha rfl

/-- The instructions that need `READY = 1` (R120, R153, R180). -/
def gatedByReady : List Mnemonic := [.ENABLE, .DISABLE, .GETOCEN, .GETDUTY, .SETDUTY, .GETMAXDUTY, .SSSTART, .CTARM]

/-- A legal word on the PWM surface is one of its six instructions. -/
theorem issues_surface (ha : addrOf t ∈ [0x28, 0x2C, 0x30]) (hro : ¬(weOf t = true ∧ addrOf t = 0x28)) :
    ∃ m ∈ gatedByReady, Issues m (.txn t) := by
  simp only [List.mem_cons, List.not_mem_nil, or_false] at ha
  cases hw : weOf t with
  | false =>
    rcases ha with ha | ha | ha
    · exact ⟨.GETMAXDUTY, by decide, issues_of_read (r := .arr) hw ha⟩
    · exact ⟨.GETDUTY, by decide, issues_of_read (r := .duty) hw ha⟩
    · exact ⟨.GETOCEN, by decide, issues_of_read (r := .ocen) hw ha⟩
  | true =>
    rcases ha with ha | ha | ha
    · exact absurd ⟨hw, ha⟩ hro
    · exact ⟨.SETDUTY, by decide, issues_of_write (r := .duty) hw ha rfl⟩
    · cases hbit : (wdataOf t).getLsbD 0 with
      | true =>
        refine ⟨.ENABLE, by decide, issues_of_write (r := .ocen) (i := .enable (rqOf t)) hw ha ?_⟩
        rw [writeInstr, hbit]
        rfl
      | false =>
        refine ⟨.DISABLE, by decide, issues_of_write (r := .ocen) (i := .disable (rqOf t)) hw ha ?_⟩
        rw [writeInstr, hbit]
        rfl

/-! ### Why each code is given (R190) -/

/-- The cause the table of R190 names for a code. -/
def Reason (t : TxnWord) (s : State) (c : RespCode) : Prop :=
  match c with
  | .ok => True
  | .cfgTz => (Issues .INIT (.txn t) ∧ s.div.ftgt = 0) ∨ (Issues .SSSTART (.txn t) ∧ s.ss.fsmp = 0)
  | .cfgRz => (Issues .INIT (.txn t) ∧ s.div.fin < s.div.ftgt) ∨ (Issues .SSSTART (.txn t) ∧ s.div.fin < s.ss.fsmp)
  | .cfgNeg => False
  | .cfgPov => False
  | .cfgPin => Issues .INIT (.txn t) ∧ Config.pinSetupSupported = false
  | .eAddr => (addrOf t).toNat % 4 ≠ 0 ∨ 0x40 ≤ (addrOf t).toNat
  | .eRo => weOf t = true ∧ addrOf t ∈ [0x10, 0x14, 0x18, 0x20, 0x24, 0x28, 0x34, 0x38, 0x3C]
  | .eNotrdy => s.drv.ready = false ∧ ∃ m ∈ gatedByReady, Issues m (.txn t)
  | .eState =>
    (Issues .INIT (.txn t) ∧ (s.drv.ready = true ∨ s.drv.cfgerr = true)) ∨
    (Issues .SSSTART (.txn t) ∧ s.ss.ssen = true) ∨ (Issues .CTARM (.txn t) ∧ s.ct.cten = true) ∨
    (Issues .SETCMD (.txn t) ∧ s.ct.cten = true)
  | .eCmd => weOf t = true ∧ addrOf t = 0x1C ∧ wdataOf t ∉ [1, 2, 3]
  | .eAcc => rqOf t = .encoder ∧ addrOf t ∉ [0x28, 0x2C, 0x30]

theorem Reason.ite {P : Prop} [Decidable P] {c d : RespCode} (hpos : P → Reason t s c) (hneg : ¬P → Reason t s d) :
    Reason t s (if P then c else d) := by
  by_cases h : P
  · rw [if_pos h]; exact hpos h
  · rw [if_neg h]; exact hneg h

/-- The check that decides the code is the cause that the code names. -/
theorem reason_of_answer {p : Response} (h : runWord t s = .next u) (hp : u.rsp = some p) : Reason t s p.code := by
  obtain ⟨u', p', hu', hp', hcode⟩ := firstFailingCheckDecides t s
  rw [h] at hu'
  cases hu'
  rw [hp] at hp'
  cases hp'
  rw [hcode]
  refine .ite id fun _ => .ite id fun _ => .ite id fun hro => .ite id fun _ => .ite ?_ fun _ => .ite ?_ fun _ =>
    .ite ?_ fun _ => .ite ?_ fun _ => trivial
  · rintro ⟨ha | ⟨hw, ha, hd⟩, hready⟩
    · exact ⟨hready, issues_surface ha fun ⟨hw, h28⟩ => hro ⟨hw, by rw [h28]; decide⟩⟩
    · simp only [List.mem_cons, List.not_mem_nil, or_false] at hd
      rcases hd with hd | hd
      · exact ⟨hready, .SSSTART, by decide, issues_ssstart hw ha hd⟩
      · exact ⟨hready, .CTARM, by decide, issues_ctarm hw ha hd⟩
  · rintro (⟨hw, ha, hd, hfinal⟩ | ⟨hw, ha, hd, hen⟩ | ⟨hw, ha, hd, hen⟩ | ⟨hw, ha, hen⟩)
    · exact .inl ⟨issues_init hw ha hd, hfinal⟩
    · exact .inr (.inl ⟨issues_ssstart hw ha hd, hen⟩)
    · exact .inr (.inr (.inl ⟨issues_ctarm hw ha hd, hen⟩))
    · exact .inr (.inr (.inr ⟨issues_setcmd hw ha, hen⟩))
  · rintro ⟨hw, ha, hd⟩
    have hissues := issues_init hw ha hd
    exact .ite (fun hz => .inl ⟨hissues, hz⟩) fun _ => .ite (fun hlt => .inl ⟨hissues, hlt⟩) fun _ =>
      .ite (fun _ => trivial) fun hpin => ⟨hissues, by simpa using hpin⟩
  · rintro ⟨hw, ha, hd⟩
    have hissues := issues_ssstart hw ha hd
    exact .ite (fun hz => .inr ⟨hissues, hz⟩) fun _ => .ite (fun hlt => .inr ⟨hissues, hlt⟩) fun _ => trivial

/-! ### What an error changes (R190) -/

/-- A construction that fails records its cause, whose number is the code's. -/
theorem construct_error {b : Bool} {p : Response} (hp : (construct b s).rsp = some p) (hne : p.code ≠ .ok) :
    p.code ∈ [RespCode.cfgTz, .cfgRz, .cfgPin] ∧ (construct b s).drv.cfgerr = true ∧
      (construct b s).drv.cfgcause.setWidth 4 = codeBits p.code := by
  cases hdiv : clockDivider s.div.fin s.div.ftgt with
  | error c =>
    rw [construct_of_error hdiv] at hp ⊢
    cases hp
    rcases cause_of_clockDivider_error hdiv with rfl | rfl <;> exact ⟨by decide, rfl, rfl⟩
  | ok d =>
    rw [construct_of_ok hdiv] at hp ⊢
    cases b <;> cases hp
    · exact ⟨by decide, rfl, rfl⟩
    · exact absurd rfl hne

theorem exec_of_not_ok {i : Instr} {p : Response} (h : exec i s = .next u) (hp : u.rsp = some p) (hne : p.code ≠ .ok) :
    u = { s with rsp := some p } ∨ (i = .init .host ∧ u = construct Config.pinSetupSupported s) := by
  have ok_absurd : ∀ {v : State}, u = respond .ok 0 v → u = { s with rsp := some p } := fun e => by
    rw [e] at hp
    cases hp
    exact absurd rfl hne
  rcases exec_cases h with ⟨c, d, rfl⟩ | ⟨v, -, e⟩ | ⟨v, -, e⟩ | ⟨v, -, e⟩ | ⟨v, -, -, e⟩ | ⟨rq, -, -, e⟩ |
    ⟨rq, -, -, e⟩ | ⟨rq, v, -, -, e⟩ | ⟨hi, -, -, e⟩ | ⟨-, -, -, rfl⟩ | ⟨-, -, -, e⟩
  case inl => cases hp; exact .inl rfl
  case inr.inr.inr.inr.inr.inr.inr.inr.inl => exact .inr ⟨hi, e⟩
  case inr.inr.inr.inr.inr.inr.inr.inr.inr.inl =>
    rcases startSampling_cases s with ⟨c, -, e⟩ | ⟨d, -, e⟩
    · rw [e] at hp ⊢
      cases hp
      exact .inl rfl
    · exact .inl (ok_absurd e)
  all_goals exact .inl (ok_absurd e)

theorem runWord_of_not_ok {p : Response} (h : runWord t s = .next u) (hp : u.rsp = some p) (hne : p.code ≠ .ok) :
    u = { s with rsp := some p } ∨ (Issues .INIT (.txn t) ∧ u = construct Config.pinSetupSupported s) := by
  rcases runWord_cases h with ⟨i, hi, hexec⟩ | ⟨e, -, rfl⟩
  · rcases exec_of_not_ok hexec hp hne with hkept | ⟨rfl, hbuilt⟩
    · exact .inl hkept
    · exact .inr ⟨issues_of_decode rfl hi, hbuilt⟩
  · cases hp
    exact .inl rfl

/-- Settles O7: every code comes with its cause, and only a failed construction changes more than the response. -/
theorem responseCodesGiven : Obligations.ResponseCodesGiven := by
  refine ⟨rfl, fun t s u p h hp => ?_⟩
  have because : ∀ {c}, p.code = c → Reason t s c := fun hc => hc ▸ reason_of_answer h hp
  refine ⟨because, because, because, because, because, because, because, because, because, because, because,
    fun hne => ?_⟩
  refine (runWord_of_not_ok h hp hne).imp_right fun ⟨hissues, hbuilt⟩ => ?_
  subst hbuilt
  exact ⟨hissues, construct_error hp hne⟩

/-! ### Repeated transactions (R64) -/

/-- What a read shows does not depend on the response before it. -/
theorem exec_readInstr_respond (r : Reg) (rq : Requester) (c : RespCode) (v : Word) (s : State) :
    exec (readInstr r rq) (respond c v s) = exec (readInstr r rq) s := by
  cases r <;> rfl

theorem exec_readInstr_keeps {r : Reg} {rq : Requester} (h : exec (readInstr r rq) s = .next u) :
    ∃ c v, u = respond c v s := by
  rcases exec_readInstr r rq s with ⟨-, v, e⟩ | ⟨-, v, e⟩ <;> rw [e] at h <;> cases h
  · exact hostRead_cases rq v s
  · exact surfaceRead_cases v s

theorem read_repeats (hw : weOf t = false) (h : runWord t s = .next u) :
    (∃ p, u = { s with rsp := some p }) ∧ runWord t u = .next u := by
  rcases decode_cases t with ⟨-, e⟩ | ⟨r, -, ⟨-, e⟩ | ⟨hw', -⟩ | ⟨hw', -⟩⟩
  · rw [runWord_of_decode_error e] at h ⊢
    cases h
    exact ⟨⟨_, rfl⟩, rfl⟩
  · rw [runWord_of_decode_ok e] at h ⊢
    obtain ⟨c, v, rfl⟩ := exec_readInstr_keeps h
    exact ⟨⟨_, rfl⟩, by rwa [exec_readInstr_respond]⟩
  · rw [hw] at hw'; cases hw'
  · rw [hw] at hw'; cases hw'

/-- A write that is idempotent is so behind a check that it does not touch. -/
theorem require_twice {check : State → Bool} {c : RespCode} {write : State → State}
    (hkept : ∀ s, check (write s) = check s) (hrespond : ∀ s, check (respond c 0 s) = check s)
    (htwice : ∀ s, write (write s) = write s) (s : State) :
    require (check (require (check s) c s (write s))) c (require (check s) c s (write s))
      (write (require (check s) c s (write s))) = require (check s) c s (write s) := by
  cases hcheck : check s
  · rw [require_false, hrespond, hcheck]
    rfl
  · rw [require_true, hkept, hcheck, require_true, htwice]

theorem requireHost_twice (rq : Requester) {write : State → State} (htwice : ∀ s, write (write s) = write s)
    (s : State) :
    requireHost rq (requireHost rq s (write s)) (write (requireHost rq s (write s))) = requireHost rq s (write s) :=
  require_twice (check := fun _ => rq == .host) (fun _ => rfl) (fun _ => rfl) htwice s

theorem requireReady_twice {write : State → State} (hkept : ∀ s, (write s).drv.ready = s.drv.ready)
    (htwice : ∀ s, write (write s) = write s) (s : State) :
    requireReady (requireReady s (write s)) (write (requireReady s (write s))) = requireReady s (write s) :=
  require_twice (check := fun s => s.drv.ready) hkept (fun _ => rfl) htwice s

theorem requireUnarmed_twice {write : State → State} (hkept : ∀ s, (write s).ct.cten = s.ct.cten)
    (htwice : ∀ s, write (write s) = write s) (s : State) :
    require (!(require (!s.ct.cten) .eState s (write s)).ct.cten) .eState (require (!s.ct.cten) .eState s (write s))
      (write (require (!s.ct.cten) .eState s (write s))) = require (!s.ct.cten) .eState s (write s) :=
  require_twice (check := fun s => !s.ct.cten) (fun s => by rw [hkept]) (fun _ => rfl) htwice s

/-- An instruction whose effect is idempotent answers alike when it is repeated. -/
theorem exec_repeats {i : Instr} {effect : State → State} (hexec : ∀ s, exec i s = .next (effect s))
    (htwice : ∀ s, effect (effect s) = effect s) (h : exec i s = .next u) : exec i u = .next u := by
  rw [hexec] at h ⊢
  cases h
  rw [htwice]

theorem operandWrite_repeats {i : Instr}
    (hi : mnemonicOf i ∈ [Mnemonic.SETFIN, .SETFTGT, .SETFSMP, .SETCMD, .SETDUTY, .ENABLE, .DISABLE])
    (h : exec i s = .next u) : exec i u = .next u := by
  cases i with
  | setfin rq v => exact exec_repeats (exec_setfin rq v) (requireHost_twice rq fun _ => rfl) h
  | setftgt rq v => exact exec_repeats (exec_setftgt rq v) (requireHost_twice rq fun _ => rfl) h
  | setfsmp rq v => exact exec_repeats (exec_setfsmp rq v) (requireHost_twice rq fun _ => rfl) h
  | setcmd rq v =>
    exact exec_repeats (exec_setcmd rq v) (requireHost_twice rq (requireUnarmed_twice (fun _ => rfl) fun _ => rfl)) h
  | setduty rq v => exact exec_repeats (exec_setduty rq v) (requireReady_twice (fun _ => rfl) fun _ => rfl) h
  | enable rq => exact exec_repeats (exec_enable rq) (requireReady_twice (fun _ => rfl) fun _ => rfl) h
  | disable rq => exact exec_repeats (exec_disable rq) (requireReady_twice (fun _ => rfl) fun _ => rfl) h
  | _ => simp [mnemonicOf] at hi

/-- Whatever the first `INIT` answers, the second finds the construction final (R145). -/
theorem init_repeated (h : exec (.init .host) s = .next u) :
    exec (.init .host) u = .next { u with rsp := some ⟨.eState, 0⟩ } := by
  refine exec_init_of_final ?_
  by_cases hfinal : s.drv.ready = true ∨ s.drv.cfgerr = true
  · rw [exec_init_of_final hfinal] at h
    cases h
    exact hfinal
  · simp only [not_or, Bool.not_eq_true] at hfinal
    rw [exec_init_of_unbuilt hfinal.1 hfinal.2] at h
    cases h
    exact construct_final _ s

/-- An `SSSTART` answered `OK` has found `READY = 1` and left it. -/
theorem ready_of_ssstart_ok (h : exec (.ssstart .host) s = .next u) (hok : u.rsp = some ⟨.ok, 0⟩) :
    u.drv.ready = true := by
  cases hready : s.drv.ready with
  | true => rw [(exec_car_of_ready h hready).1, hready]
  | false =>
    rw [exec_ssstart_of_not_ready hready] at h
    cases h
    cases hok

theorem ctarm_repeated (h : exec (.ctarm .host) s = .next u) (hok : u.rsp = some ⟨.ok, 0⟩) :
    exec (.ctarm .host) u = .next { u with rsp := some ⟨.eState, 0⟩ } := by
  cases hready : s.drv.ready with
  | false =>
    rw [exec_ctarm_of_not_ready hready] at h
    cases h
    cases hok
  | true =>
    cases hen : s.ct.cten with
    | true =>
      rw [exec_ctarm_of_armed hready hen] at h
      cases h
      cases hok
    | false =>
      rw [exec_ctarm_of_unarmed hready hen] at h
      cases h
      exact exec_ctarm_of_armed hready rfl

/-- Settles O13: a read shows the same again, a write finds its check and its register as it left them, and a command
finds what it has switched on. -/
theorem readsAndRepeatedWrites : Obligations.ReadsAndRepeatedWrites := by
  refine ⟨fun t s u => read_repeats, fun i s u => operandWrite_repeats, fun s u => init_repeated, fun s u h hok => ?_,
    fun s u => ctarm_repeated⟩
  obtain ⟨d, hss⟩ := ss_of_ssstart_ok h hok
  exact exec_ssstart_of_running (ready_of_ssstart_ok h hok) (by rw [hss])

/-! ### A read straight after a write (R63, R67) -/

theorem exec_getduty_of_ready (h : s.drv.ready = true) :
    exec (.getduty .host) s = .next { s with rsp := some ⟨.ok, s.car.duty.setWidth 32⟩ } := by
  rw [exec_getduty, surfaceRead_of_ready h, respond_eq]

theorem exec_getocen_of_ready (h : s.drv.ready = true) :
    exec (.getocen .host) s = .next { s with rsp := some ⟨.ok, if s.car.ocen = true then 1 else 0⟩ } := by
  rw [exec_getocen, surfaceRead_of_ready h, respond_eq]

/-- Settles O14: the host's write passes its checks and the read shows the register it has replaced. -/
theorem writtenValueReadsBack : Obligations.WrittenValueReadsBack := by
  intro s u v
  refine ⟨fun h => ?_, fun h => ?_, fun h => ?_, fun hen h => ?_, fun hready h => ?_, fun hready h => ?_,
    fun hready h => ?_⟩
  · rw [exec_setfin, requireHost_host] at h
    cases h
    rw [exec_getfin, hostRead_host]
    rfl
  · rw [exec_setftgt, requireHost_host] at h
    cases h
    rw [exec_getftgt, hostRead_host]
    rfl
  · rw [exec_setfsmp, requireHost_host] at h
    cases h
    rw [exec_getfsmp, hostRead_host]
    rfl
  · rw [exec_setcmd_of_unarmed hen] at h
    cases h
    refine ⟨(v.extractLsb' 0 17).setWidth 32, by rw [exec_getcmd, hostRead_host]; rfl, ?_⟩
    rw [BitVec.toNat_setWidth, BitVec.extractLsb'_toNat, Nat.shiftRight_zero]
    omega
  · rw [exec_setduty_of_ready hready] at h
    cases h
    refine ⟨(v.extractLsb' 0 16).setWidth 32, exec_getduty_of_ready hready, ?_⟩
    rw [BitVec.toNat_setWidth, BitVec.extractLsb'_toNat, Nat.shiftRight_zero]
    omega
  · rw [exec_enable_of_ready hready] at h
    cases h
    exact exec_getocen_of_ready hready
  · rw [exec_disable_of_ready hready] at h
    cases h
    exact exec_getocen_of_ready hready

/-- Settles O18: each value is the calculator's or the status's, computed. -/
theorem workedExamples : Obligations.WorkedExamples :=
  ⟨rfl, rfl, rfl, rfl, rfl, rfl, rfl, rfl, rfl, rfl, rfl, rfl⟩

end Sys2Proof.Machine

/-! PROOFS. The encoder at the port: what its instructions change, and what its transactions are answered in a
handler. -/

namespace Sys2Proof.Machine

open Sys2Proof.Safety

variable {s t : State}

/-- The instructions of the PWM surface (R73). -/
def surfaceMnemonics : List Mnemonic := [.ENABLE, .DISABLE, .GETOCEN, .GETDUTY, .SETDUTY, .GETMAXDUTY]

/-- Every effect on another unit belongs to an instruction of the host, so the encoder's reach the channel and the duty
only. -/
theorem exec_encoder_frame {i : Instr} (hrq : requesterOf i = .encoder) (h : exec i s = .next t) :
    t = { s with car := { s.car with duty := t.car.duty, ocen := t.car.ocen }, rsp := t.rsp } := by
  rcases exec_cases h with ⟨c, d, rfl⟩ | ⟨v, rfl, -⟩ | ⟨v, rfl, -⟩ | ⟨v, rfl, -⟩ | ⟨v, rfl, -⟩ | ⟨rq, -, -, rfl⟩ |
    ⟨rq, -, -, rfl⟩ | ⟨rq, v, -, -, rfl⟩ | ⟨rfl, -⟩ | ⟨rfl, -⟩ | ⟨rfl, -⟩
  case inl => rfl
  case inr.inr.inr.inr.inr.inl => rfl
  case inr.inr.inr.inr.inr.inr.inl => rfl
  case inr.inr.inr.inr.inr.inr.inr.inl => rfl
  all_goals exact absurd hrq nofun

/-- Off the surface every instruction begins with the requester check (R73). -/
theorem exec_encoder_off_surface {i : Instr} (hrq : requesterOf i = .encoder) (hi : mnemonicOf i ∉ surfaceMnemonics)
    (s : State) : exec i s = .next { s with rsp := some ⟨.eAcc, 0⟩ } := by
  cases i with
  | enable rq | disable rq | getocen rq | getduty rq | setduty rq v | getmaxduty rq =>
    exact absurd (by simp [mnemonicOf, surfaceMnemonics]) hi
  | _ =>
    obtain rfl : _ = Requester.encoder := hrq
    rfl

/-! ### In a handler (R205) -/

/-- The encoder issues its words in a call, which only an active sequence makes, and that only when `READY = 1`. -/
theorem ready_of_encMayIssue {w : TxnWord} (hc : Consistent s) (ha : ActiveOnlyWhenReady s)
    (h : encMayIssue w s = true) : s.drv.ready = true := by
  obtain ⟨-, -, hcall⟩ := (encMayIssue_iff w s).1 h
  have hlock : s.dsp.lock = true := hc.call_iff.1 (by rcases hcall with ⟨hcall, -⟩ | ⟨hcall, -⟩ <;> simp [hcall])
  obtain ⟨src, rest, hstk⟩ := hc.lock_top hlock
  exact ha (by simp [hstk])

/-- A word of the encoder at the address of a register meets the checks of R194 that are left with `READY = 1`. -/
theorem code_of_encoder_word {w : TxnWord} {p : Response} (hrq : rqOf w = .encoder) (haddr : addressesRegister w = true)
    (hready : s.drv.ready = true) (h : runWord w s = .next t) (hp : t.rsp = some p) :
    p.code ∈ [RespCode.ok, .eAcc, .eRo] := by
  obtain ⟨u', p', hu', hp', hcode⟩ := firstFailingCheckDecides w s
  rw [h] at hu'
  cases hu'
  rw [hp] at hp'
  cases hp'
  obtain ⟨haligned, hmapped⟩ := (addressesRegister_iff w).1 haddr
  rw [hcode, if_neg (by omega)]
  by_cases hoff : addrOf w ∉ [0x28, 0x2C, 0x30]
  · rw [if_pos ⟨hrq, hoff⟩]
    decide
  rw [if_neg fun hacc => hoff hacc.2]
  rw [not_not] at hoff
  have hctrl : addrOf w ≠ 0x1C := fun h => by rw [h] at hoff; exact absurd hoff (by decide)
  have hcmdval : addrOf w ≠ 0x0C := fun h => by rw [h] at hoff; exact absurd hoff (by decide)
  split
  · decide
  · simp only [hctrl, hcmdval, hready, false_and, and_false, or_self, if_false, Bool.true_eq_false]
    decide

/-- A ConfigurationError is none of the answers of a handler. -/
theorem codes_of_construction_disjoint :
    ∀ c ∈ [RespCode.cfgTz, .cfgRz, .cfgPin], c ∉ [RespCode.ok, .eAcc, .eRo] := by
  decide

/-- Settles O53: the frame and the refusal are read off the instructions, the surface ignores the requester, and in a
handler the checks that can fail are those of the requester and of a read-only register. -/
theorem encoderReachesTheSurfaceOnly : Obligations.EncoderReachesTheSurfaceOnly := by
  refine ⟨fun i s t hrq => exec_encoder_frame hrq, fun i s hrq hi => exec_encoder_off_surface hrq hi s,
    fun s v => ⟨rfl, rfl, rfl, rfl, rfl, rfl⟩, fun s w hc ha hnext hrq hen => ?_⟩
  obtain ⟨t, ht, p, hp, -⟩ := runWord_answered w (consume s)
  rw [txnEnabled_encoder hrq] at hen
  have hready := ready_of_encMayIssue (consistent_consume hc) (activeOnlyWhenReady_consume ha) hen
  obtain ⟨haddr, -⟩ := (encMayIssue_iff w _).1 hen
  have hcode := code_of_encoder_word hrq haddr hready ht hp
  refine ⟨t, p, by rw [step_of_txn hnext (by rwa [txnEnabled_encoder hrq]), ht], hp, ?_⟩
  by_cases hok : p.code = .ok
  · exact .inl hok
  · refine .inr ⟨List.mem_of_ne_of_mem hok hcode, ?_⟩
    rcases runWord_of_not_ok ht hp hok with hkept | ⟨-, rfl⟩
    · exact hkept
    · obtain ⟨hcfg, -⟩ := construct_error hp hok
      exact absurd hcode (codes_of_construction_disjoint _ hcfg)

end Sys2Proof.Machine
